-- ==== Sys2Proof/Word.lean ====
section
/-! DEFINITION. The widths the spec fixes (00_scope.md R7, R8; 30_encoding.md R33, R35, R44; 40_converter.md R50). -/

namespace Sys2Proof

/-- A byte on the bus, and the fields OPSEL, ARG and ADDR of the host port (R33, R35). -/
abbrev Byte := BitVec 8

/-- A 16-bit word: a request word (R33), a command code (R40), a data word (R43), a raw tick (R46). -/
abbrev Word := BitVec 16

/-- STATUS, an s16 (R44). The block compares statuses for equality and passes them on; it computes nothing with them. -/
abbrev Status := BitVec 16

/-- A 7-bit I2C device address (R20). -/
abbrev DevAddr := BitVec 7

/-- A 32-bit result field: TEMP, an s32 in two's complement, or SERIAL, a u32 (R35). -/
abbrev Word32 := BitVec 32

end Sys2Proof
end

