-- ==== Sys2Proof/Machine/Bits.lean ====
section
/-! DEFINITION. Bit fields and byte order: the most significant byte first, everywhere (20_memory.md R23;
00_scope.md R8). -/

namespace Sys2Proof.Machine

/-- `w[15:8]`: OPSEL of a request word (R33), the first byte of a command frame (R39). -/
def hiByte (w : Word) : Byte := w.extractLsb' 8 8

/-- `w[7:0]`: ARG of a request word (R33), the second byte of a command frame (R39). -/
def loByte (w : Word) : Byte := w.extractLsb' 0 8

/-- The concatenation of two bytes, the first at the more significant end: `(hi << 8) | lo` (R43). -/
def wordOf (hi lo : Byte) : Word := hi ++ lo

/-- The concatenation of two words, the first at the more significant end: `(w0 << 16) | w1` (R43). -/
def word32Of (w0 w1 : Word) : Word32 := w0 ++ w1

end Sys2Proof.Machine
end

