-- ==== Sys2Proof/Config.lean ====
section
/-! DEFINITION. What is fixed when the block is built (00_scope.md R7, one field a row), and the free values: the
constants without a body that stand for what the spec leaves open. The defaults of the fields are in
Machine/Params.lean. -/

namespace Sys2Proof

/-- The implementation parameters of the block (R7): configuration, not state, unaffected by reset (R13). -/
structure Config where
  /-- P_DEV_ADDR: the one device address the block uses (R20). -/
  devAddr : DevAddr
  /-- P_CLOCK_STRETCH: selects the defaults of other parameters and nothing else (R13, R45). -/
  clockStretch : Bool
  /-- P_CMD_MEAS_HIGH (R40). -/
  cmdMeasHigh : Word
  /-- P_CMD_MEAS_MEDIUM (R40). -/
  cmdMeasMedium : Word
  /-- P_CMD_MEAS_LOW (R40). -/
  cmdMeasLow : Word
  /-- P_CMD_READ_STATUS (R40). -/
  cmdReadStatus : Word
  /-- P_CMD_READ_SERIAL (R40). -/
  cmdReadSerial : Word
  /-- P_CMD_HEATER_ON (R40). -/
  cmdHeaterOn : Word
  /-- P_CMD_HEATER_OFF (R40). -/
  cmdHeaterOff : Word
  /-- P_MEAS_DURATION_US, microseconds (R63, R93). -/
  measDurationUs : Nat
  /-- P_STATUS_READ_DELAY_US, microseconds (R59). -/
  statusReadDelayUs : Nat
  /-- P_SERIAL_READ_DELAY_US, microseconds (R66). -/
  serialReadDelayUs : Nat
  /-- P_ST_OK: the only status the block tests for (R44). -/
  stOk : Status
  /-- P_ST_BAD_DATA: a named code no rule generates (R71). -/
  stBadData : Status
  /-- P_ST_CRC_FAIL: the one failure code the block generates itself (R54, R71). -/
  stCrcFail : Status
  /-- P_ST_UNKNOWN_DEVICE: a named code no rule generates (R71). -/
  stUnknownDevice : Status
  /-- P_CRC8: the external CRC engine, a total function of the bytes alone (R52). -/
  crc8 : List Byte → Byte
  /-- P_VERSION: a finite byte string of which nothing may be assumed (R67). -/
  version : List Byte

/-- FREE VALUE. The text of P_VERSION, which the spec leaves OPEN (R67, D26). Log entry 9. -/
opaque Config.freeVersion : List Byte

/-- FREE VALUE. P_MEAS_DURATION_US of a clock-stretching build, OPEN (R93, D18). Log entry 8. -/
opaque Config.stretchMeasDurationUs : Nat

/-- FREE VALUE. P_STATUS_READ_DELAY_US of a clock-stretching build, OPEN (R93, D18). Log entry 8. -/
opaque Config.stretchStatusReadDelayUs : Nat

/-- FREE VALUE. P_SERIAL_READ_DELAY_US of a clock-stretching build, OPEN (R93, D18). Log entry 8. -/
opaque Config.stretchSerialReadDelayUs : Nat

/-- FREE VALUE. The status the I2C engine answers to the k-th write when State lists no answer for it (R21). Log entry 3. -/
opaque Config.freeWriteStatus : Nat → Status

/-- FREE VALUE. The status the I2C engine answers to the k-th read when State lists no answer for it (R22). Log entry 3. -/
opaque Config.freeReadStatus : Nat → Status

/-- FREE VALUE. Byte i of the frame of the k-th read, where State lists none (R22). Log entry 3. -/
opaque Config.freeReadByte : Nat → Nat → Byte

/-- FREE VALUE. The k-th unspecified TEMP or SERIAL field of a response whose STATUS is not OK (R76). Log entry 4. -/
opaque Config.freeResult : Nat → Word32

end Sys2Proof
end

