-- ==== Sys2Proof/Machine/Params.lean ====
section
/-! DEFINITION. The default of every parameter (00_scope.md R7; 30_encoding.md R40; 41_wrapper.md R52), and the block
that is built from them. The numbers but for 0x4A are general knowledge by the spec's own mark (93, GK1 to GK5): the
operations are written over any `Config`, and no law of the model unfolds one of these numbers. Log entry 7. -/

namespace Sys2Proof.Machine

/-- One bit of the default P_CRC8: shift left, and on a carry out of bit 7 add the polynomial 0x31 (R52). -/
def crc8Bit (crc : Byte) : Byte :=
  if crc.msb then (crc <<< 1) ^^^ 0x31#8 else crc <<< 1

/-- One byte of the default P_CRC8, most significant bit first (R52). -/
def crc8Byte (crc b : Byte) : Byte :=
  crc8Bit (crc8Bit (crc8Bit (crc8Bit (crc8Bit (crc8Bit (crc8Bit (crc8Bit (crc ^^^ b))))))))

/-- The default P_CRC8: initial value 0xFF, no reflection, no final XOR (R52). -/
def crc8Default (bytes : List Byte) : Byte :=
  bytes.foldl crc8Byte 0xFF#8

/-- Default of P_CMD_MEAS_HIGH, without and with clock stretching (R40). -/
def codeMeasHigh (stretch : Bool) : Word := if stretch then 0x2C06#16 else 0x2400#16

/-- Default of P_CMD_MEAS_MEDIUM, without and with clock stretching (R40). -/
def codeMeasMedium (stretch : Bool) : Word := if stretch then 0x2C0D#16 else 0x240B#16

/-- Default of P_CMD_MEAS_LOW, without and with clock stretching (R40). -/
def codeMeasLow (stretch : Bool) : Word := if stretch then 0x2C10#16 else 0x2416#16

/-- Default of P_CMD_READ_STATUS (R40). -/
def codeReadStatus : Word := 0xF32D#16

/-- Default of P_CMD_READ_SERIAL (R40). -/
def codeReadSerial : Word := 0x3780#16

/-- Default of P_CMD_HEATER_ON (R40). -/
def codeHeaterOn : Word := 0x306D#16

/-- Default of P_CMD_HEATER_OFF (R40). -/
def codeHeaterOff : Word := 0x3066#16

/-- The parameters at their defaults, for either setting of P_CLOCK_STRETCH (R7). With clock stretching the delays are
OPEN (R93, D18): free values. P_VERSION is OPEN in both (R67, D26). -/
def defaultConfig (stretch : Bool) : Config where
  devAddr := 0x4A#7
  clockStretch := stretch
  cmdMeasHigh := codeMeasHigh stretch
  cmdMeasMedium := codeMeasMedium stretch
  cmdMeasLow := codeMeasLow stretch
  cmdReadStatus := codeReadStatus
  cmdReadSerial := codeReadSerial
  cmdHeaterOn := codeHeaterOn
  cmdHeaterOff := codeHeaterOff
  measDurationUs := if stretch then Config.stretchMeasDurationUs else 15000
  statusReadDelayUs := if stretch then Config.stretchStatusReadDelayUs else 1000
  serialReadDelayUs := if stretch then Config.stretchSerialReadDelayUs else 1000
  stOk := 0#16
  stBadData := (-1)
  stCrcFail := (-2)
  stUnknownDevice := (-3)
  crc8 := crc8Default
  version := Config.freeVersion

/-- The built block: the defaults, P_CLOCK_STRETCH false (R7, D18). -/
def built : Config := defaultConfig false

end Sys2Proof.Machine
end

