-- ==== Sys2Proof/Syntax.lean ====
section
/-! DEFINITION. The instructions: one constructor for each of the twenty rows of opcode_table.json, ten of format REQ
(the operations the host requests, 30_encoding.md R34) and ten of format CMD (the command words the block sends,
30_encoding.md R40). -/

namespace Sys2Proof

/-- The two formats of opcode_table.json. -/
inductive Format where
  /-- A request word on the host port (R33). -/
  | req
  /-- A command word the block writes to the sensor (R39, R40). -/
  | cmd
  deriving DecidableEq, Repr

/-- The instructions. Only SET_REP has an operand: every other operation ignores ARG (R37), and a command word is
all code (R40). -/
inductive Instr where
  /-- PROBE, the liveness check (R59). -/
  | probe
  /-- SET_REP with its ARG (R60). -/
  | setRep (arg : Byte)
  /-- START_MEAS (R61). -/
  | startMeas
  /-- READ_MEAS (R62). -/
  | readMeas
  /-- MEAS_BLOCKING (R63). -/
  | measBlocking
  /-- HEATER_ON (R64). -/
  | heaterOn
  /-- HEATER_OFF (R65). -/
  | heaterOff
  /-- READ_SERIAL (R66). -/
  | readSerial
  /-- GET_VERSION (R67). -/
  | getVersion
  /-- GET_ADDR (R68). -/
  | getAddr
  /-- CMD_MEAS_HIGH: measure, high repeatability, no clock stretching (R40). -/
  | cmdMeasHigh
  /-- CMD_MEAS_MEDIUM (R40). -/
  | cmdMeasMedium
  /-- CMD_MEAS_LOW (R40). -/
  | cmdMeasLow
  /-- CMD_MEAS_HIGH_CS: measure, high repeatability, clock stretching (R40). -/
  | cmdMeasHighCs
  /-- CMD_MEAS_MEDIUM_CS (R40). -/
  | cmdMeasMediumCs
  /-- CMD_MEAS_LOW_CS (R40). -/
  | cmdMeasLowCs
  /-- CMD_READ_STATUS (R40). -/
  | cmdReadStatus
  /-- CMD_READ_SERIAL (R40). -/
  | cmdReadSerial
  /-- CMD_HEATER_ON (R40). -/
  | cmdHeaterOn
  /-- CMD_HEATER_OFF (R40). -/
  | cmdHeaterOff
  deriving DecidableEq, Repr

/-- The format of an instruction's row. -/
def Instr.format : Instr → Format
  | .probe | .setRep _ | .startMeas | .readMeas | .measBlocking => .req
  | .heaterOn | .heaterOff | .readSerial | .getVersion | .getAddr => .req
  | .cmdMeasHigh | .cmdMeasMedium | .cmdMeasLow => .cmd
  | .cmdMeasHighCs | .cmdMeasMediumCs | .cmdMeasLowCs => .cmd
  | .cmdReadStatus | .cmdReadSerial | .cmdHeaterOn | .cmdHeaterOff => .cmd

end Sys2Proof
end

