-- ==== Sys2Proof/WellFormed.lean ====
section
/-! DEFINITION. The checks on terms. ARG is a byte by its type, so every instruction is well formed in the format of its
row; what is checked is that it stands where its format may stand (the host cannot send a command word, 41_wrapper.md,
and the block sends no request word), and that a configuration meets R7's constraint on the status values. -/

namespace Sys2Proof

/-- An instruction is well formed in a format when its row has that format: a request of the host is one of the ten
operations (R34), a command word one of the ten rows of R40. -/
def Instr.wellFormed (f : Format) (i : Instr) : Bool :=
  decide (i.format = f)

/-- R7: "P_ST_OK, P_ST_BAD_DATA, P_ST_CRC_FAIL and P_ST_UNKNOWN_DEVICE are pairwise different". -/
def Config.wellFormed (c : Config) : Bool :=
  decide (c.stOk ≠ c.stBadData) && decide (c.stOk ≠ c.stCrcFail) && decide (c.stOk ≠ c.stUnknownDevice)
    && decide (c.stBadData ≠ c.stCrcFail) && decide (c.stBadData ≠ c.stUnknownDevice)
    && decide (c.stCrcFail ≠ c.stUnknownDevice)

end Sys2Proof
end

