-- ==== Sys2Proof/Decode.lean ====
section
/-! DEFINITION. The decoders of the two formats of opcode_table.json, total, rejecting by name, and the encoder
(30_encoding.md R33, R34, R37 to R40). A request word arrives on the host port as a 16-bit value (R31, R33); a command
word goes out as a frame of two bytes, most significant first (R39). -/

namespace Sys2Proof

open Sys2Proof.Machine

/-- Why a word or a frame decodes to nothing. -/
inductive DecodeError where
  /-- A request word whose OPSEL is 0x0A to 0xFF (R38). -/
  | reservedOpsel (opsel : Byte)
  /-- A word that is none of the ten command codes of R40. -/
  | unknownCommand (w : Word)
  /-- A command frame that is not two bytes long (R39). -/
  | badFrameLength (n : Nat)
  deriving DecidableEq, Repr

/-- R34: the operation an OPSEL selects; 0x0A to 0xFF are reserved. ARG is used by SET_REP alone (R36, R37). -/
def operationOf (opsel arg : Byte) : Option Instr :=
  match opsel.toNat with
  | 0x00 => some .probe
  | 0x01 => some (.setRep arg)
  | 0x02 => some .startMeas
  | 0x03 => some .readMeas
  | 0x04 => some .measBlocking
  | 0x05 => some .heaterOn
  | 0x06 => some .heaterOff
  | 0x07 => some .readSerial
  | 0x08 => some .getVersion
  | 0x09 => some .getAddr
  | _ => none

/-- Decode a request word: format REQ, OPSEL in bits 15:8, ARG in bits 7:0 (R33). -/
def decodeReq (w : Word) : Except DecodeError Instr :=
  match operationOf (hiByte w) (loByte w) with
  | some i => .ok i
  | none => .error (.reservedOpsel (hiByte w))

/-- R40: the ten command codes of opcode_table.json, the three measurement codes once for each setting of
P_CLOCK_STRETCH. -/
def commandTable : List (Word × Instr) :=
  [(codeMeasHigh false, .cmdMeasHigh), (codeMeasMedium false, .cmdMeasMedium), (codeMeasLow false, .cmdMeasLow),
   (codeMeasHigh true, .cmdMeasHighCs), (codeMeasMedium true, .cmdMeasMediumCs), (codeMeasLow true, .cmdMeasLowCs),
   (codeReadStatus, .cmdReadStatus), (codeReadSerial, .cmdReadSerial),
   (codeHeaterOn, .cmdHeaterOn), (codeHeaterOff, .cmdHeaterOff)]

/-- Decode a command word: format CMD, the whole word is the code (R40). -/
def decodeCmd (w : Word) : Except DecodeError Instr :=
  match commandTable.lookup w with
  | some i => .ok i
  | none => .error (.unknownCommand w)

/-- Decode a command frame, the bytes of a write transaction (R39). -/
def decodeFrame (bytes : List Byte) : Except DecodeError Instr :=
  match bytes with
  | [b0, b1] => decodeCmd (wordOf b0 b1)
  | _ => .error (.badFrameLength bytes.length)

/-- The decoder of a format. -/
def decode : Format → Word → Except DecodeError Instr
  | .req => decodeReq
  | .cmd => decodeCmd

/-- The word of an instruction (R34, R40). Where ARG is ignored (R37) the encoder writes 0. -/
def encode : Instr → Word
  | .probe => wordOf 0x00#8 0x00#8
  | .setRep arg => wordOf 0x01#8 arg
  | .startMeas => wordOf 0x02#8 0x00#8
  | .readMeas => wordOf 0x03#8 0x00#8
  | .measBlocking => wordOf 0x04#8 0x00#8
  | .heaterOn => wordOf 0x05#8 0x00#8
  | .heaterOff => wordOf 0x06#8 0x00#8
  | .readSerial => wordOf 0x07#8 0x00#8
  | .getVersion => wordOf 0x08#8 0x00#8
  | .getAddr => wordOf 0x09#8 0x00#8
  | .cmdMeasHigh => codeMeasHigh false
  | .cmdMeasMedium => codeMeasMedium false
  | .cmdMeasLow => codeMeasLow false
  | .cmdMeasHighCs => codeMeasHigh true
  | .cmdMeasMediumCs => codeMeasMedium true
  | .cmdMeasLowCs => codeMeasLow true
  | .cmdReadStatus => codeReadStatus
  | .cmdReadSerial => codeReadSerial
  | .cmdHeaterOn => codeHeaterOn
  | .cmdHeaterOff => codeHeaterOff

/-- The mnemonic of an instruction's row (R34, opcode_table.json). -/
def Instr.mnemonic : Instr → String
  | .probe => "PROBE"
  | .setRep _ => "SET_REP"
  | .startMeas => "START_MEAS"
  | .readMeas => "READ_MEAS"
  | .measBlocking => "MEAS_BLOCKING"
  | .heaterOn => "HEATER_ON"
  | .heaterOff => "HEATER_OFF"
  | .readSerial => "READ_SERIAL"
  | .getVersion => "GET_VERSION"
  | .getAddr => "GET_ADDR"
  | .cmdMeasHigh => "CMD_MEAS_HIGH"
  | .cmdMeasMedium => "CMD_MEAS_MEDIUM"
  | .cmdMeasLow => "CMD_MEAS_LOW"
  | .cmdMeasHighCs => "CMD_MEAS_HIGH_CS"
  | .cmdMeasMediumCs => "CMD_MEAS_MEDIUM_CS"
  | .cmdMeasLowCs => "CMD_MEAS_LOW_CS"
  | .cmdReadStatus => "CMD_READ_STATUS"
  | .cmdReadSerial => "CMD_READ_SERIAL"
  | .cmdHeaterOn => "CMD_HEATER_ON"
  | .cmdHeaterOff => "CMD_HEATER_OFF"

/-- The textual notation of an operation: its mnemonic, followed for SET_REP by its argument in decimal (R45). -/
def Instr.text : Instr → String
  | .setRep arg => "SET_REP " ++ toString arg.toNat
  | i => i.mnemonic

/-- The 16-bit word of a table row given as its low `nbits` bits, the bits above them zero. -/
def tableWord (nbits w : Nat) : Word := BitVec.ofNat 16 (w % 2 ^ nbits)

/-- The instruction of a word of opcode_table.json. No default command code is a request word of an operation, so the
two formats are tried in turn (log entry 22). -/
def decodeTableWord (nbits w : Nat) : Option Instr :=
  if 16 < nbits then none else
  match decodeReq (tableWord nbits w) with
  | .ok i => some i
  | .error _ =>
    match decodeCmd (tableWord nbits w) with
    | .ok i => some i
    | .error _ => none

end Sys2Proof
end

