-- ==== Sys2Proof/Machine/Converter.lean ====
section
/-! DEFINITION. TCONV, the fixed-point temperature converter (40_converter.md): pure, total, without state (R51). -/

namespace Sys2Proof.Machine

/-- R46, on mathematical integers: `((21875 * t) >> 13) - 45000`, t unsigned. -/
def tConvInt (t : Word) : Int :=
  (((21875 * t.toNat) >>> 13 : Nat) : Int) - 45000

/-- TConv(t), delivered as an s32 in two's complement (R46, R50). -/
def tConv (t : Word) : Word32 := BitVec.ofInt 32 (tConvInt t)

end Sys2Proof.Machine
end

