-- ==== Sys2Proof/Machine/State.lean ====
section
/-! DEFINITION. The state of the block (10_state.md), the inputs it reads and the bookkeeping the spec gives a model,
all plain data; why a step can stop; the state after reset (10_state.md section 5; 70_reset_and_hazards.md R84). -/

namespace Sys2Proof.Machine

/-- REP_MODE's three values (R11). -/
inductive RepMode where
  | high
  | medium
  | low
  deriving DecidableEq, Repr

/-- The field of a response beside STATUS, where the operation has one (R35). -/
inductive Data where
  /-- PROBE, SET_REP, START_MEAS, HEATER_ON, HEATER_OFF: STATUS only. -/
  | none
  /-- READ_MEAS, MEAS_BLOCKING: TEMP, an s32 in millidegrees Celsius. -/
  | temp (v : Word32)
  /-- READ_SERIAL: SERIAL, a u32. -/
  | serial (v : Word32)
  /-- GET_VERSION: VERSION, a finite byte string. -/
  | version (v : List Byte)
  /-- GET_ADDR: ADDR, a u8. -/
  | addr (v : Byte)
  deriving DecidableEq, Repr

/-- A response on the host port (R35). -/
structure Response where
  status : Status
  data : Data
  deriving DecidableEq, Repr

/-- An event of the trace (R29). -/
inductive Event where
  /-- `W(addr, bytes, st)`: a write transaction and the engine's status. -/
  | write (addr : DevAddr) (bytes : List Byte) (st : Status)
  /-- `R(addr, n, st, buf)`: a read transaction of n bytes, the engine's status and bytes. -/
  | read (addr : DevAddr) (n : Nat) (st : Status) (buf : List Byte)
  /-- `S(us)`: a delay. -/
  | sleep (us : Nat)
  deriving DecidableEq, Repr

/-- READ_WORDS is specified for one and for two words only (R58). -/
inductive WordCount where
  | one
  | two
  deriving DecidableEq, Repr

/-- What a running operation does with the words it is about to read. -/
inductive ReadKind where
  /-- PROBE: one word, discarded (R59). -/
  | status
  /-- READ_MEAS, MEAS_BLOCKING: one word, converted to TEMP (R62). -/
  | temp
  /-- READ_SERIAL: two words, assembled to SERIAL (R66). -/
  | serial
  deriving DecidableEq, Repr

/-- What follows a command that was written successfully. -/
inductive AfterCommand where
  /-- Nothing: the operation responds with the write's status (R61, R64, R65). -/
  | respond
  /-- A delay of `us`, then a read (R55, R63). -/
  | read (us : Nat) (kind : ReadKind)
  deriving DecidableEq, Repr

/-- The position inside the running operation (R14, R15): which step comes next. -/
inductive Pos where
  /-- No operation runs. -/
  | idle
  /-- The next step writes the command word `cmd`. -/
  | command (cmd : Word) (after : AfterCommand)
  /-- The next step is the delay `Sleep(us)`. -/
  | delay (us : Nat) (kind : ReadKind)
  /-- The next step reads the words and checks their CRCs. -/
  | read (kind : ReadKind)
  /-- The next step gives the response. -/
  | answer (r : Response)
  deriving DecidableEq, Repr

/-- What reaches the block on the host side. -/
inductive HostInput where
  /-- A request word on the host port (R32, R33). -/
  | request (w : Word)
  /-- A reset (R84, R85). -/
  | reset
  deriving DecidableEq, Repr

/-- The I2C engine's answer to one read transaction: its status and the bytes it delivers, first byte first (R22). -/
structure ReadAnswer where
  status : Status
  bytes : List Byte
  deriving DecidableEq, Repr

/-- The I2C engine as the block sees it: the answers it is going to give, an input of the machine (R21, R22). The two
counters number the transactions made; where a list has run out, the answer to transaction k is the free value k. -/
structure Engine where
  writeAnswers : List Status
  readAnswers : List ReadAnswer
  /-- The model's own: how many writes were made. -/
  writes : Nat
  /-- The model's own: how many reads were made. -/
  reads : Nat
  deriving DecidableEq, Repr

/-- The whole state. The block's own state is `repMode` (R11) and `pos` (R14, R15; BUSY is `State.busy`). `host` and
`engine` are its inputs, `trace` and `responses` bookkeeping that no rule reads (R29), `draws` the model's own. -/
structure State where
  /-- REP_MODE (R11). -/
  repMode : RepMode
  /-- The position inside the running operation (R14, R15). -/
  pos : Pos
  /-- Requests and resets not yet taken, in the order in which they reach the block. -/
  host : List HostInput
  /-- The I2C engine's answers to come. -/
  engine : Engine
  /-- The event trace, in order of occurrence (R29). -/
  trace : List Event
  /-- The responses given, in order (R32, R35). -/
  responses : List Response
  /-- The model's own: how many unspecified result fields were given (R76). -/
  draws : Nat
  deriving DecidableEq, Repr

/-- BUSY: "true from the moment the block accepts a request on the host port until it gives the response, false
otherwise" (R15), that is, while there is a position inside an operation. -/
def State.busy (s : State) : Bool := decide (s.pos ≠ .idle)

/-- The block has no faults: "neither a fault, nor stuck, nor a refusal" is what a failure is (R83); it raises no
exception and takes no trap (R70, R75). So there is no reason to fault, and no step does. -/
inductive Fault where
  deriving DecidableEq, Repr

/-- Why a step or a meaning can be refused (R83). -/
inductive Refusal where
  /-- Raised by exec's arms for an instruction that has no meaning yet; no arm does. Safe. -/
  | notModelled (mnemonic : String)
  /-- Raised by step for a request word with OPSEL 0x0A to 0xFF (R38, R83 a). Safe: no state is given. -/
  | reservedRequest (w : Word)
  /-- Raised by step for a reset that arrives while BUSY (R85, R83 c). Safe: no state is given. -/
  | resetWhileBusy
  /-- Raised by the meaning of an operation at a state whose BUSY is true: a request is accepted only when BUSY is false
  (R32). Safe; step never raises it, since it holds the request (R15, R83 b). -/
  | requestWhileBusy
  /-- Raised by the meaning of a command word where no running operation stands at its command phase: the host cannot
  call a micro-operation (41_wrapper.md). Safe; step never raises it. -/
  | commandOutsideOperation
  deriving DecidableEq, Repr

/-- Right after reset: REP_MODE is High and the block is idle (R84), no event and no response has been, and no input has
been placed. The counters of free values start at 0 (the model's own, log entry 3). -/
def State.reset : State where
  repMode := .high
  pos := .idle
  host := []
  engine := { writeAnswers := [], readAnswers := [], writes := 0, reads := 0 }
  trace := []
  responses := []
  draws := 0

end Sys2Proof.Machine
end

