-- ==== Sys2Proof/Machine/Engine.lean ====
section
/-! DEFINITION. The answers of the external I2C engine (20_memory.md R21, R22): any status, any bytes. An answer is
the next one listed in the state; where none is listed it is a free value (log entries 2 and 3). -/

namespace Sys2Proof.Machine

/-- The status the engine answers to the next write (R21). -/
def Engine.writeStatus (e : Engine) : Status :=
  e.writeAnswers.head?.getD (Config.freeWriteStatus e.writes)

/-- The status the engine answers to the next read (R22). -/
def Engine.readStatus (e : Engine) : Status :=
  (e.readAnswers.head?.map ReadAnswer.status).getD (Config.freeReadStatus e.reads)

/-- Byte i of the frame the engine delivers at the next read (R22); a byte that the listed answer lacks is free. -/
def Engine.readByte (e : Engine) (i : Nat) : Byte :=
  ((e.readAnswers.head?.map ReadAnswer.bytes).getD []).getD i (Config.freeReadByte e.reads i)

/-- The engine after one write: its answer is used up. -/
def Engine.afterWrite (e : Engine) : Engine :=
  { e with writeAnswers := e.writeAnswers.tail, writes := e.writes + 1 }

/-- The engine after one read: its answer is used up. -/
def Engine.afterRead (e : Engine) : Engine :=
  { e with readAnswers := e.readAnswers.tail, reads := e.reads + 1 }

end Sys2Proof.Machine
end

