-- ==== Sys2Proof/Machine/Operands.lean ====
section
/-! DEFINITION. Operand decoding and selection: DecodeRep (30_encoding.md R36), REP_MODE's two bits (10_state.md R11),
MeasCmd (R41), how many words a read fetches (R58). -/

namespace Sys2Proof.Machine

/-- R36: 1 gives Medium, 2 gives Low, every other value gives High. -/
def decodeRep (arg : Byte) : RepMode :=
  if arg = 1#8 then .medium
  else if arg = 2#8 then .low
  else .high

/-- R11: the two bits in which a hardware realisation holds REP_MODE. -/
def repModeBits : RepMode → BitVec 2
  | .high => 0#2
  | .medium => 1#2
  | .low => 2#2

/-- R41: the measurement command of a repeatability mode. -/
def measCmd (c : Config) (m : RepMode) : Word :=
  if m = .high then c.cmdMeasHigh
  else if m = .medium then c.cmdMeasMedium
  else c.cmdMeasLow

/-- The number of words (R58). -/
def WordCount.words : WordCount → Nat
  | .one => 1
  | .two => 2

/-- R58: one word for the status and the temperature, two for the serial number. -/
def ReadKind.count : ReadKind → WordCount
  | .status => .one
  | .temp => .one
  | .serial => .two

end Sys2Proof.Machine
end

