-- ==== Sys2Proof/Machine/Flags.lean ====
section
/-! DEFINITION. The block has no flags and no condition codes (10_state.md R16). In their place stand its two
conditions: the test of a status (30_encoding.md R44; 60_exceptions.md R73) and the CRC check (41_wrapper.md R52, R56). -/

namespace Sys2Proof.Machine

/-- "The single test the block ever makes on a status is `st = OK`" (R44). -/
def statusOk (c : Config) (st : Status) : Bool := decide (st = c.stOk)

/-- `CrcCheck(bytes, n, crc)`: one query of the CRC engine (R52). -/
def crcCheck (c : Config) (bytes : List Byte) (n : Nat) (crc : Byte) : Bool :=
  decide (c.crc8 (bytes.take n) = crc)

/-- Word i of a read frame: the CRC byte at 3i+2 covers the bytes 3i and 3i+1 (R42). -/
def wordCrcOk (c : Config) (buf : Nat → Byte) (i : Nat) : Bool :=
  crcCheck c [buf (3 * i), buf (3 * i + 1)] 2 (buf (3 * i + 2))

/-- Every word of the frame is checked before any is delivered (R54, R56). -/
def frameCrcOk (c : Config) (count : WordCount) (buf : Nat → Byte) : Bool :=
  (List.range count.words).all (wordCrcOk c buf)

end Sys2Proof.Machine
end

