-- ==== Sys2Proof/Machine/Ops.lean ====
section
/-! DEFINITION. The shared operations: the three transactions of the outward ports (20_memory.md R21, R22;
70_reset_and_hazards.md R92), the three micro-operations (41_wrapper.md R53 to R55), the responses (30_encoding.md R35;
60_exceptions.md R70, R76), the host port (30_encoding.md R32) and reset (R84). The block takes no exceptions (R75): the
place of taking one is giving a response with a non-OK STATUS, and the place of returning from one is BUSY becoming
false (R77). -/

namespace Sys2Proof.Machine

/-- `st <- MemWrite(addr, n, v)`, n the length of v (R21): one write transaction, recorded in the trace (R29). -/
def memWrite (addr : DevAddr) (v : List Byte) (s : State) : Status × State :=
  (s.engine.writeStatus,
   { s with engine := s.engine.afterWrite, trace := s.trace ++ [.write addr v s.engine.writeStatus] })

/-- `(st, buf) <- MemRead(addr, n)` (R22): one read transaction, recorded in the trace (R29). -/
def memRead (addr : DevAddr) (n : Nat) (s : State) : (Status × (Nat → Byte)) × State :=
  ((s.engine.readStatus, s.engine.readByte),
   { s with
     engine := s.engine.afterRead
     trace := s.trace ++ [.read addr n s.engine.readStatus ((List.range n).map s.engine.readByte)] })

/-- `Sleep(us)` (R92): it always completes and cannot fail; it is an event, also when us is 0 (R55). -/
def sleep (us : Nat) (s : State) : State :=
  { s with trace := s.trace ++ [.sleep us] }

/-- `WRITE_CMD(cmd)` (R53): the two bytes of the command word, most significant first, without a CRC (R39). -/
def writeCmd (c : Config) (cmd : Word) (s : State) : Status × State :=
  memWrite c.devAddr [hiByte cmd, loByte cmd] s

/-- Word i of a frame: `(buf[3i] << 8) | buf[3i+1]` (R43). -/
def frameWord (buf : Nat → Byte) (i : Nat) : Word := wordOf (buf (3 * i)) (buf (3 * i + 1))

/-- What READ_WORDS and DELAYED_READ_CMD answer: the words, or the status of the first failure. -/
abbrev WordsOrStatus := Except Status (Nat → Word)

/-- `READ_WORDS(count)` (R54): one read transaction of 3 * count bytes; a transport failure is passed on and no CRC is
looked at; a CRC mismatch of any word gives CRC_FAIL and delivers no word. -/
def readWords (c : Config) (count : WordCount) (s : State) : WordsOrStatus × State :=
  let r := memRead c.devAddr (3 * count.words) s
  if statusOk c r.1.1 then
    if frameCrcOk c count r.1.2 then (.ok (frameWord r.1.2), r.2)
    else (.error c.stCrcFail, r.2)
  else (.error r.1.1, r.2)

/-- `DELAYED_READ_CMD(cmd, delay_us, count)` (R55): write, wait, read; a failed write skips the delay and the read. -/
def delayedReadCmd (c : Config) (cmd : Word) (us : Nat) (count : WordCount) (s : State) : WordsOrStatus × State :=
  let w := writeCmd c cmd s
  if statusOk c w.1 then readWords c count (sleep us w.2)
  else (.error w.1, w.2)

/-- `unspecified_32` (00_scope.md R9; R76): a free value, a fresh one each time. -/
def unspecified32 (s : State) : Word32 × State :=
  (Config.freeResult s.draws, { s with draws := s.draws + 1 })

/-- PROBE's response to its read: STATUS only, the status word is discarded (R59). -/
def statusResponse (c : Config) (w : WordsOrStatus) (s : State) : Response × State :=
  match w with
  | .ok _ => ({ status := c.stOk, data := .none }, s)
  | .error st => ({ status := st, data := .none }, s)

/-- READ_MEAS's response to its read: TEMP is TConv of the word (R62), unspecified on failure (R76). -/
def tempResponse (c : Config) (w : WordsOrStatus) (s : State) : Response × State :=
  match w with
  | .ok words => ({ status := c.stOk, data := .temp (tConv (words 0)) }, s)
  | .error st => ({ status := st, data := .temp (unspecified32 s).1 }, (unspecified32 s).2)

/-- READ_SERIAL's response to its read: SERIAL is `(w0 << 16) | w1` (R43, R66), unspecified on failure (R76). -/
def serialResponse (c : Config) (w : WordsOrStatus) (s : State) : Response × State :=
  match w with
  | .ok words => ({ status := c.stOk, data := .serial (word32Of (words 0) (words 1)) }, s)
  | .error st => ({ status := st, data := .serial (unspecified32 s).1 }, (unspecified32 s).2)

/-- Give a response on the host port (R32, R35); giving it clears BUSY. -/
def give (p : Response × State) : State :=
  { p.2 with responses := p.2.responses ++ [p.1], pos := .idle }

/-- A request is accepted only when BUSY is false (R32); an accepted one runs to its response. -/
def onHostPort (s : State) (run : State → State) : Host.Outcome State Fault Refusal :=
  if s.busy then .refused .requestWhileBusy else .next (run s)

/-- Reset of the idle block (R84): REP_MODE is High, nothing runs, no port is touched. -/
def resetBlock (s : State) : State :=
  { s with repMode := .high, pos := .idle }

end Sys2Proof.Machine
end

