-- ==== Sys2Proof/Machine/HeaterSerial.lean ====
section
/-! DEFINITION. HEATER_ON, HEATER_OFF, READ_SERIAL (44_heater_serial.md R64 to R66). -/

namespace Sys2Proof.Machine

/-- The heater operations are a "single command-word write" (R64, R65): STATUS is the write's status. -/
def commandOnly (c : Config) (cmd : Word) (s : State) : Response × State :=
  let w := writeCmd c cmd s
  ({ status := w.1, data := .none }, w.2)

/-- R66: `(st, w) <- DELAYED_READ_CMD(P_CMD_READ_SERIAL, P_SERIAL_READ_DELAY_US, 2)`. -/
def readSerial (c : Config) (s : State) : Response × State :=
  let r := delayedReadCmd c c.cmdReadSerial c.serialReadDelayUs .two s
  serialResponse c r.1 r.2

/-- HEATER_ON on the host port (R64). -/
def execHeaterOn (s : State) : Host.Outcome State Fault Refusal :=
  onHostPort s fun s => give (commandOnly built built.cmdHeaterOn s)

/-- HEATER_OFF on the host port (R65). -/
def execHeaterOff (s : State) : Host.Outcome State Fault Refusal :=
  onHostPort s fun s => give (commandOnly built built.cmdHeaterOff s)

/-- READ_SERIAL on the host port (R66). -/
def execReadSerial (s : State) : Host.Outcome State Fault Refusal :=
  onHostPort s fun s => give (readSerial built s)

end Sys2Proof.Machine
end

