-- ==== Sys2Proof/Machine/Info.lean ====
section
/-! DEFINITION. GET_VERSION and GET_ADDR, the operations that read a constant (45_info.md R67, R68). -/

namespace Sys2Proof.Machine

/-- R67: `return (OK, P_VERSION)`. -/
def getVersion (c : Config) (s : State) : Response × State :=
  ({ status := c.stOk, data := .version c.version }, s)

/-- R68: `return (OK, zext_8(P_DEV_ADDR))`: the plain address, bit 7 zero. -/
def getAddr (c : Config) (s : State) : Response × State :=
  ({ status := c.stOk, data := .addr (c.devAddr.setWidth 8) }, s)

/-- GET_VERSION on the host port. -/
def execGetVersion (s : State) : Host.Outcome State Fault Refusal :=
  onHostPort s fun s => give (getVersion built s)

/-- GET_ADDR on the host port. -/
def execGetAddr (s : State) : Host.Outcome State Fault Refusal :=
  onHostPort s fun s => give (getAddr built s)

end Sys2Proof.Machine
end

