-- ==== Sys2Proof/Machine/Measurement.lean ====
section
/-! DEFINITION. SET_REP, START_MEAS, READ_MEAS, MEAS_BLOCKING (43_measurement.md R60 to R63). -/

namespace Sys2Proof.Machine

/-- R60: `REP_MODE <- DecodeRep(arg)`; `return OK`. -/
def setRep (c : Config) (arg : Byte) (s : State) : Response × State :=
  ({ status := c.stOk, data := .none }, { s with repMode := decodeRep arg })

/-- R61: `st <- WRITE_CMD(MeasCmd(REP_MODE))`; `return st`. -/
def startMeas (c : Config) (s : State) : Status × State :=
  writeCmd c (measCmd c s.repMode) s

/-- R62: `(st, w) <- READ_WORDS(1)`; TEMP is TConv(w[0]) when st is OK. -/
def readMeas (c : Config) (s : State) : Response × State :=
  let r := readWords c .one s
  tempResponse c r.1 r.2

/-- R63: START_MEAS as a sub-step; when it fails its status is the operation's, and the delay and the read are skipped;
else `Sleep(P_MEAS_DURATION_US)` and READ_MEAS as a sub-step. -/
def measBlocking (c : Config) (s : State) : Response × State :=
  let w := startMeas c s
  if statusOk c w.1 then readMeas c (sleep c.measDurationUs w.2)
  else tempResponse c (.error w.1) w.2

/-- SET_REP on the host port. -/
def execSetRep (arg : Byte) (s : State) : Host.Outcome State Fault Refusal :=
  onHostPort s fun s => give (setRep built arg s)

/-- START_MEAS on the host port: STATUS is the write's status. -/
def execStartMeas (s : State) : Host.Outcome State Fault Refusal :=
  onHostPort s fun s =>
    let w := startMeas built s
    give ({ status := w.1, data := .none }, w.2)

/-- READ_MEAS on the host port. -/
def execReadMeas (s : State) : Host.Outcome State Fault Refusal :=
  onHostPort s fun s => give (readMeas built s)

/-- MEAS_BLOCKING on the host port. -/
def execMeasBlocking (s : State) : Host.Outcome State Fault Refusal :=
  onHostPort s fun s => give (measBlocking built s)

end Sys2Proof.Machine
end

