-- ==== Sys2Proof/Machine/Probe.lean ====
section
/-! DEFINITION. PROBE (42_probe.md R59). -/

namespace Sys2Proof.Machine

/-- R59: `(st, w) <- DELAYED_READ_CMD(P_CMD_READ_STATUS, P_STATUS_READ_DELAY_US, 1)`; `return st`. -/
def probe (c : Config) (s : State) : Response × State :=
  let r := delayedReadCmd c c.cmdReadStatus c.statusReadDelayUs .one s
  statusResponse c r.1 r.2

/-- PROBE on the host port. -/
def execProbe (s : State) : Host.Outcome State Fault Refusal :=
  onHostPort s fun s => give (probe built s)

end Sys2Proof.Machine
end

