-- ==== Sys2Proof/Machine/Sequencer.lean ====
section
/-! DEFINITION. The block one transaction at a time: accepting a request, then one micro-step for each port transaction,
then one for the response (10_state.md R14, R15; 20_memory.md R25, R27). It is the second description of the ten
operations: the meanings follow the pseudocode of the operation rules, this file their sequence of transactions, and
Obligations.SequencerRefinesOperation says that the two agree. -/

namespace Sys2Proof.Machine

/-- Accept a request at an idle block (R32): BUSY becomes true, the block stands before the operation's first step.
REP_MODE is sampled when the command word is formed (R61). Command words are no requests (R38). -/
def accept (c : Config) (i : Instr) (s : State) : State :=
  match i with
  | .probe => { s with pos := .command c.cmdReadStatus (.read c.statusReadDelayUs .status) }
  | .setRep arg => { s with repMode := decodeRep arg, pos := .answer { status := c.stOk, data := .none } }
  | .startMeas => { s with pos := .command (measCmd c s.repMode) .respond }
  | .readMeas => { s with pos := .read .temp }
  | .measBlocking => { s with pos := .command (measCmd c s.repMode) (.read c.measDurationUs .temp) }
  | .heaterOn => { s with pos := .command c.cmdHeaterOn .respond }
  | .heaterOff => { s with pos := .command c.cmdHeaterOff .respond }
  | .readSerial => { s with pos := .command c.cmdReadSerial (.read c.serialReadDelayUs .serial) }
  | .getVersion => { s with pos := .answer { status := c.stOk, data := .version c.version } }
  | .getAddr => { s with pos := .answer { status := c.stOk, data := .addr (c.devAddr.setWidth 8) } }
  | .cmdMeasHigh => s
  | .cmdMeasMedium => s
  | .cmdMeasLow => s
  | .cmdMeasHighCs => s
  | .cmdMeasMediumCs => s
  | .cmdMeasLowCs => s
  | .cmdReadStatus => s
  | .cmdReadSerial => s
  | .cmdHeaterOn => s
  | .cmdHeaterOff => s

/-- The response of an operation that ends with a read, from what the read gave. -/
def readResponse (c : Config) (kind : ReadKind) (w : WordsOrStatus) (s : State) : Response × State :=
  match kind with
  | .status => statusResponse c w s
  | .temp => tempResponse c w s
  | .serial => serialResponse c w s

/-- Stand before giving the response. -/
def prepare (p : Response × State) : State := { p.2 with pos := .answer p.1 }

/-- After the write of a command: its status is the response where nothing follows it or where it is not OK (R73), else
the delay comes next. -/
def afterCommand (c : Config) (after : AfterCommand) (st : Status) (s : State) : State :=
  match after with
  | .respond => prepare ({ status := st, data := .none }, s)
  | .read us kind =>
    if statusOk c st then { s with pos := .delay us kind }
    else prepare (readResponse c kind (.error st) s)

/-- The command phase: WRITE_CMD of the word (R53). -/
def sendCommand (c : Config) (cmd : Word) (after : AfterCommand) (s : State) : State :=
  let w := writeCmd c cmd s
  afterCommand c after w.1 w.2

/-- One micro-step of a busy block: one port transaction, or the response. An idle block makes none. -/
def microStep (c : Config) (s : State) : State :=
  match s.pos with
  | .idle => s
  | .command cmd after => sendCommand c cmd after s
  | .delay us kind => { sleep us s with pos := .read kind }
  | .read kind =>
    let r := readWords c kind.count s
    prepare (readResponse c kind r.1 r.2)
  | .answer r => give (r, s)

/-- Run the operation in progress to its response: at most command, delay, read and response are left. -/
def finish (c : Config) (s : State) : State :=
  microStep c (microStep c (microStep c (microStep c s)))

end Sys2Proof.Machine
end

