-- ==== Sys2Proof/Machine/Commands.lean ====
section
/-! DEFINITION. The command words of format CMD (30_encoding.md R40): each is the micro-operation WRITE_CMD of its code
(41_wrapper.md R53) at the command phase of the running operation. "The host cannot call a micro-operation directly;
there is no OPSEL for one" (41_wrapper.md), so there is no such phase in an idle block (log entry 6). -/

namespace Sys2Proof.Machine

/-- WRITE_CMD of a code where the running operation is about to write a command; what follows is the operation's. -/
def atCommandPhase (code : Word) (s : State) : Host.Outcome State Fault Refusal :=
  match s.pos with
  | .command _ after => .next (sendCommand built code after s)
  | .idle => .refused .commandOutsideOperation
  | .delay _ _ => .refused .commandOutsideOperation
  | .read _ => .refused .commandOutsideOperation
  | .answer _ => .refused .commandOutsideOperation

/-- CMD_MEAS_HIGH (R40). -/
def execCmdMeasHigh (s : State) : Host.Outcome State Fault Refusal := atCommandPhase (codeMeasHigh false) s

/-- CMD_MEAS_MEDIUM (R40). -/
def execCmdMeasMedium (s : State) : Host.Outcome State Fault Refusal := atCommandPhase (codeMeasMedium false) s

/-- CMD_MEAS_LOW (R40). -/
def execCmdMeasLow (s : State) : Host.Outcome State Fault Refusal := atCommandPhase (codeMeasLow false) s

/-- CMD_MEAS_HIGH_CS (R40). -/
def execCmdMeasHighCs (s : State) : Host.Outcome State Fault Refusal := atCommandPhase (codeMeasHigh true) s

/-- CMD_MEAS_MEDIUM_CS (R40). -/
def execCmdMeasMediumCs (s : State) : Host.Outcome State Fault Refusal := atCommandPhase (codeMeasMedium true) s

/-- CMD_MEAS_LOW_CS (R40). -/
def execCmdMeasLowCs (s : State) : Host.Outcome State Fault Refusal := atCommandPhase (codeMeasLow true) s

/-- CMD_READ_STATUS (R40). -/
def execCmdReadStatus (s : State) : Host.Outcome State Fault Refusal := atCommandPhase codeReadStatus s

/-- CMD_READ_SERIAL (R40). -/
def execCmdReadSerial (s : State) : Host.Outcome State Fault Refusal := atCommandPhase codeReadSerial s

/-- CMD_HEATER_ON (R40). -/
def execCmdHeaterOn (s : State) : Host.Outcome State Fault Refusal := atCommandPhase codeHeaterOn s

/-- CMD_HEATER_OFF (R40). -/
def execCmdHeaterOff (s : State) : Host.Outcome State Fault Refusal := atCommandPhase codeHeaterOff s

end Sys2Proof.Machine
end

