-- ==== Sys2Proof/Machine/Dispatch.lean ====
section
/-! DEFINITION. One arm per instruction, each one call of its meaning. -/

namespace Sys2Proof.Machine

def exec (i : Instr) (s : State) : Host.Outcome State Fault Refusal :=
  match i with
  | .probe => Sys2Proof.Machine.execProbe s
  | .setRep arg => Sys2Proof.Machine.execSetRep arg s
  | .startMeas => Sys2Proof.Machine.execStartMeas s
  | .readMeas => Sys2Proof.Machine.execReadMeas s
  | .measBlocking => Sys2Proof.Machine.execMeasBlocking s
  | .heaterOn => Sys2Proof.Machine.execHeaterOn s
  | .heaterOff => Sys2Proof.Machine.execHeaterOff s
  | .readSerial => Sys2Proof.Machine.execReadSerial s
  | .getVersion => Sys2Proof.Machine.execGetVersion s
  | .getAddr => Sys2Proof.Machine.execGetAddr s
  | .cmdMeasHigh => Sys2Proof.Machine.execCmdMeasHigh s
  | .cmdMeasMedium => Sys2Proof.Machine.execCmdMeasMedium s
  | .cmdMeasLow => Sys2Proof.Machine.execCmdMeasLow s
  | .cmdMeasHighCs => Sys2Proof.Machine.execCmdMeasHighCs s
  | .cmdMeasMediumCs => Sys2Proof.Machine.execCmdMeasMediumCs s
  | .cmdMeasLowCs => Sys2Proof.Machine.execCmdMeasLowCs s
  | .cmdReadStatus => Sys2Proof.Machine.execCmdReadStatus s
  | .cmdReadSerial => Sys2Proof.Machine.execCmdReadSerial s
  | .cmdHeaterOn => Sys2Proof.Machine.execCmdHeaterOn s
  | .cmdHeaterOff => Sys2Proof.Machine.execCmdHeaterOff s

end Sys2Proof.Machine
end

