-- ==== Sys2Proof/Machine/Fetch.lean ====
section
/-! DEFINITION. Where the next instruction comes from. The block fetches nothing from a memory (20_memory.md R31): an
idle block takes the next request from the host port (30_encoding.md R32), a busy one at its command phase takes the
command word it is about to send (10_state.md R14). One step of the machine runs one operation to its response (log
entry 5). -/

namespace Sys2Proof.Machine

/-- After a command word was sent, run the operation to its response. -/
def thenFinish (o : Host.Outcome State Fault Refusal) : Host.Outcome State Fault Refusal :=
  match o with
  | .next s => .next (finish built s)
  | .fault r => .fault r
  | .refused r => .refused r

/-- The idle block and its host port: nothing there, the block waits; a reset (R84); a request word, decoded and run, or
refused where its OPSEL is reserved (R38). -/
def stepIdle (s : State) : Host.Outcome State Fault Refusal :=
  match s.host with
  | [] => .next s
  | .reset :: rest => .next (resetBlock { s with host := rest })
  | .request w :: rest =>
    match decodeReq w with
    | .ok i => exec i { s with host := rest }
    | .error _ => .refused (.reservedRequest w)

/-- The busy block goes on with its operation; the host is held (R15). At the command phase the word about to be sent is
decoded and run; a code that a configuration sets and the table does not list is sent all the same (R53). -/
def stepBusy (s : State) : Host.Outcome State Fault Refusal :=
  match s.pos with
  | .command w after =>
    match decodeCmd w with
    | .ok i => thenFinish (exec i s)
    | .error _ => .next (finish built (sendCommand built w after s))
  | .idle => .next (finish built s)
  | .delay _ _ => .next (finish built s)
  | .read _ => .next (finish built s)
  | .answer _ => .next (finish built s)

/-- One step: a reset that arrives while BUSY is refused (R85); else the block goes on, or takes what the host gives. -/
def stepBlock (s : State) : Host.Outcome State Fault Refusal :=
  if s.busy then
    if s.host.head? = some .reset then .refused .resetWhileBusy else stepBusy s
  else stepIdle s

/-- Put a word where the next step takes its instruction from: a command word in the command phase of an operation that
ends with its write, any other word at the head of the host port of an idle block. -/
def placeWord (s : State) (w : Word) : State :=
  match decodeCmd w with
  | .ok _ => { s with pos := .command w .respond, host := s.host.dropWhile (fun h => decide (h = .reset)) }
  | .error _ => { s with pos := .idle, host := .request w :: s.host.tail }

end Sys2Proof.Machine
end

