-- ==== Sys2Proof/Machine/Step.lean ====
section
/-! DEFINITION. One step of the machine, and the placing of a word where the next step fetches its instruction. -/

namespace Sys2Proof.Machine

/-- One step (Machine/Fetch.lean says what it does). -/
def step (s : State) : Host.Outcome State Fault Refusal := stepBlock s

/-- The state s with the instruction word w placed so that the very next step runs it. -/
def State.withFetchWord (s : State) (nbits w : Nat) : State := placeWord s (tableWord nbits w)

end Sys2Proof.Machine
end

