-- ==== Sys2Proof/Safety.lean ====
section
/-! DEFINITION. What a safe run is: which transactions the block may ever make (20_memory.md R20, R24, R25;
41_wrapper.md R58; 70_reset_and_hazards.md R92), as invariants of the state. -/

namespace Sys2Proof

open Sys2Proof.Machine

/-- One of the seven command codes of the configuration: "the block sends only the seven codes of rule R40" (R38). -/
def Config.isCommand (c : Config) (w : Word) : Prop :=
  w = c.cmdMeasHigh ∨ w = c.cmdMeasMedium ∨ w = c.cmdMeasLow ∨ w = c.cmdReadStatus ∨ w = c.cmdReadSerial
    ∨ w = c.cmdHeaterOn ∨ w = c.cmdHeaterOff

/-- One of the three constant durations (R80, R92). -/
def Config.isDelay (c : Config) (us : Nat) : Prop :=
  us = c.statusReadDelayUs ∨ us = c.measDurationUs ∨ us = c.serialReadDelayUs

/-- A transaction the block may make: to DEV_ADDR alone (R20), a write of the two bytes of a command code (R39, R58), a
read of 3 or of 6 bytes (R25, R58), one of the three delays (R92). -/
def Machine.Event.legal (c : Config) : Event → Prop
  | .write addr bytes _ => addr = c.devAddr ∧ ∃ w, c.isCommand w ∧ bytes = [hiByte w, loByte w]
  | .read addr n _ buf => addr = c.devAddr ∧ (n = 3 ∨ n = 6) ∧ buf.length = n
  | .sleep us => c.isDelay us

/-- A position from which only legal transactions follow. -/
def Machine.Pos.legal (c : Config) : Pos → Prop
  | .idle => True
  | .command w .respond => c.isCommand w
  | .command w (.read us _) => c.isCommand w ∧ c.isDelay us
  | .delay us _ => c.isDelay us
  | .read _ => True
  | .answer _ => True

/-- Every transaction made so far was legal, and the running operation stands where only legal ones follow. -/
def Machine.State.BusLegal (s : State) : Prop :=
  (∀ e ∈ s.trace, e.legal built) ∧ s.pos.legal built

/-- The last event is a write that the engine reported OK. -/
def endsInOkWrite (c : Config) (trace : List Event) : Prop :=
  ∃ before addr bytes, trace = before ++ [.write addr bytes c.stOk]

/-- R92: a sleep comes "only after a successful command write"; where the running operation stands before a delay, the
write has just succeeded. -/
def Machine.State.SleepsFollowWrites (s : State) : Prop :=
  (∀ before us after, s.trace = before ++ .sleep us :: after → endsInOkWrite built before) ∧
  (∀ us kind, s.pos = .delay us kind → endsInOkWrite built s.trace)

end Sys2Proof
end

