-- ==== Sys2Proof/Certificates/Slice0/Obligations.lean ====
section
/-! DEFINITION. The statements for the provers, from the numbered rules of spec/. Where a response carries an unspecified
field (60_exceptions.md R76) the statement says that some value stands there and nothing of which; `d` is then the
model's own count of such values (log entry 4). The parameters are named, never their numbers, but where a docstring
says so. -/

open Sys2Proof Sys2Proof.Machine

/-! ### Reset and the host port -/

/-- R84: reset puts the idle block into its startup state, REP_MODE = High and no operation in progress, and performs no
transaction on any port; the state the model starts from is such a state. The clauses on the bookkeeping and the inputs
(the host's further inputs, the responses given, the model's count of free values, and that the trace is kept, which
10_state.md section 5 only lets a model do) are the model's choice, log entry 11. -/
def Obligations.ResetStartsHighAndIdle : Prop :=
  (∀ (s : State) (rest : List HostInput), s.busy = false → s.host = .reset :: rest →
    ∃ t, step s = .next t ∧ t.repMode = .high ∧ t.busy = false ∧ t.pos = .idle ∧ t.trace = s.trace ∧
      t.engine = s.engine ∧ t.host = rest ∧ t.responses = s.responses ∧ t.draws = s.draws) ∧
  State.reset.repMode = .high ∧ State.reset.busy = false ∧ State.reset.trace = []

/-- R85: a reset while BUSY is true is refused, wherever the running operation stands. -/
def Obligations.ResetWhileBusyRefused : Prop :=
  ∀ (s : State) (rest : List HostInput), s.busy = true → s.host = .reset :: rest → step s = .refused .resetWhileBusy

/-- R38: a request word with OPSEL 0x0A to 0xFF is refused, with no step, and a request word with a smaller OPSEL takes
one. -/
def Obligations.ReservedRequestRefused : Prop :=
  ∀ (s : State) (w : Word) (rest : List HostInput), s.busy = false → s.host = .request w :: rest →
    (0x0A00 ≤ w.toNat → step s = .refused (.reservedRequest w)) ∧
    (w.toNat < 0x0A00 → ∃ t, step s = .next t)

/-- R15, R32: BUSY is true from the acceptance of a request to its response, and while it is true no request is taken. That
ONE step of a busy block runs the operation on to its one response, and BUSY is then false, is the model's choice, log
entry 5; that the request held stands at the head of the host's inputs meanwhile is the model's choice, log entry 13. -/
def Obligations.BusyHoldsTheHost : Prop :=
  (∀ (i : Instr) (s : State), i.wellFormed .req = true → s.busy = false → (accept built i s).busy = true) ∧
  (∀ (s : State), s.busy = true → s.host.head? ≠ some .reset →
    ∃ t r, step s = .next t ∧ t.host = s.host ∧ t.busy = false ∧ t.responses = s.responses ++ [r]) ∧
  State.reset.busy = false

/-- R32: an idle block takes the request at the host port, runs the operation it selects and gives exactly one response,
and is idle again; nothing else of the host's is taken. That all of it is one step is the model's choice, log entry 5. -/
def Obligations.OneRequestOneResponse : Prop :=
  ∀ (s : State) (w : Word) (rest : List HostInput) (i : Instr), s.busy = false → s.host = .request w :: rest →
    decodeReq w = .ok i →
    ∃ t r, step s = .next t ∧ t.responses = s.responses ++ [r] ∧ t.busy = false ∧ t.host = rest

/-- A step of an idle block runs the decoded request: it is exec of that instruction where the request has been taken
from the host port. -/
def Obligations.StepRunsDecodedRequest : Prop :=
  ∀ (s : State) (w : Word) (rest : List HostInput) (i : Instr), s.busy = false → s.host = .request w :: rest →
    decodeReq w = .ok i → step s = exec i { s with host := rest }

/-- A step of a block that is about to send a command word runs the decoded command word, and then the rest of the
operation up to its response. That a command word is an instruction run at the command phase is the model's choice, log
entry 6; that the same step goes on to the response is the model's choice, log entry 5. R14 and R53 give the position
and the transaction, and neither of the two choices. -/
def Obligations.StepRunsDecodedCommand : Prop :=
  ∀ (s : State) (w : Word) (after : AfterCommand) (i : Instr), s.pos = .command w after →
    s.host.head? ≠ some .reset → decodeCmd w = .ok i →
    ∃ t, exec i s = .next t ∧ step s = .next (finish built t)

/-- Every instruction, placed where the machine fetches its next one, is run by the very next step. Where that is is the
model's choice, log entries 1 and 6; that the step goes on to the response is the model's choice, log entry 5. -/
def Obligations.PlacedInstructionRuns : Prop :=
  ∀ (s : State) (i : Instr), ∃ t r, step (s.withFetchWord 16 (encode i).toNat) = .next t ∧
    t.responses = s.responses ++ [r] ∧ t.busy = false

/-- Where a step stops, and nowhere else: a reset while BUSY (R85) and a request word with a reserved OPSEL (R38). No
step faults. -/
def Obligations.StepStopsOnlyHere : Prop :=
  ∀ (s : State),
    (∃ t, step s = .next t) ∨
    (s.busy = true ∧ s.host.head? = some .reset ∧ step s = .refused .resetWhileBusy) ∨
    (s.busy = false ∧ ∃ w, s.host.head? = some (.request w) ∧ 0x0A00 ≤ w.toNat ∧
      step s = .refused (.reservedRequest w))

/-- Where a meaning stops, and nowhere else: an operation at a busy block, a command word outside a command phase (the
model's choice, log entries 6 and 13). -/
def Obligations.MeaningStopsOnlyHere : Prop :=
  ∀ (i : Instr) (s : State),
    (∃ t, exec i s = .next t) ∨
    (i.wellFormed .req = true ∧ s.busy = true ∧ exec i s = .refused .requestWhileBusy) ∨
    (i.wellFormed .cmd = true ∧ (∀ w after, s.pos ≠ .command w after) ∧
      exec i s = .refused .commandOutsideOperation)

/-- R77: nothing is sticky. After any operation, whatever its status, the block is idle and the next request is accepted
and completes. -/
def Obligations.NextRequestAcceptedAfterAny : Prop :=
  ∀ (i j : Instr) (s : State), i.wellFormed .req = true → j.wellFormed .req = true → s.busy = false →
    ∃ t u, exec i s = .next t ∧ t.busy = false ∧ exec j t = .next u ∧ u.busy = false

/-! ### Encodings -/

/-- Decoding an encoded instruction gives it back, in the format in which it is well formed, with SET_REP's ARG at every
value. -/
def Obligations.DecodeInvertsEncode : Prop :=
  ∀ (f : Format) (i : Instr), i.wellFormed f = true → decode f (encode i) = .ok i

/-- Encoding a decoded word gives the word back but for an ARG that is ignored. -/
def Obligations.EncodeInvertsDecode : Prop :=
  (∀ (w : Word) (i : Instr), decodeReq w = .ok i →
    i.wellFormed .req = true ∧ (encode i).toNat / 256 = w.toNat / 256 ∧ (w.toNat / 256 = 1 → encode i = w)) ∧
  (∀ (w : Word) (i : Instr), decodeCmd w = .ok i → i.wellFormed .cmd = true ∧ encode i = w)

/-- R34: OPSEL, in bits 15:8 of the request word, selects the operation, whatever ARG is. -/
def Obligations.OpselSelectsOperation : Prop :=
  ∀ (w : Word),
    (w.toNat / 256 = 0x00 → decodeReq w = .ok .probe) ∧
    (w.toNat / 256 = 0x01 → decodeReq w = .ok (.setRep (BitVec.ofNat 8 (w.toNat % 256)))) ∧
    (w.toNat / 256 = 0x02 → decodeReq w = .ok .startMeas) ∧
    (w.toNat / 256 = 0x03 → decodeReq w = .ok .readMeas) ∧
    (w.toNat / 256 = 0x04 → decodeReq w = .ok .measBlocking) ∧
    (w.toNat / 256 = 0x05 → decodeReq w = .ok .heaterOn) ∧
    (w.toNat / 256 = 0x06 → decodeReq w = .ok .heaterOff) ∧
    (w.toNat / 256 = 0x07 → decodeReq w = .ok .readSerial) ∧
    (w.toNat / 256 = 0x08 → decodeReq w = .ok .getVersion) ∧
    (w.toNat / 256 = 0x09 → decodeReq w = .ok .getAddr) ∧
    (0x0A ≤ w.toNat / 256 → ∃ e, decodeReq w = .error e)

/-- R37: two request words with the same OPSEL, other than SET_REP's, select the same operation with the same
behaviour. -/
def Obligations.ArgIgnoredButBySetRep : Prop :=
  ∀ (w v : Word) (s : State) (rest : List HostInput), w.toNat / 256 = v.toNat / 256 → w.toNat / 256 ≠ 1 →
    w.toNat / 256 < 0x0A → s.busy = false →
    decodeReq w = decodeReq v ∧ step { s with host := .request w :: rest } = step { s with host := .request v :: rest }

/-- No word is both a request of an operation and one of the default command codes (the codes are general knowledge,
log entry 7). -/
def Obligations.FormatsAreDisjoint : Prop :=
  ∀ (w : Word) (i : Instr), decodeCmd w = .ok i → ∃ e, decodeReq w = .error e

/-- Words of both formats, written out from the spec's tables, decode to the instructions they stand for (the command
codes are the spec's defaults, general knowledge, log entry 7). -/
def Obligations.SampleWordsDecode : Prop :=
  decodeReq 0b0000000000000000#16 = .ok .probe ∧
  decodeReq 0b0000000101100011#16 = .ok (.setRep 99#8) ∧
  decodeReq 0b0000010011111111#16 = .ok .measBlocking ∧
  decodeReq 0b0000011000000000#16 = .ok .heaterOff ∧
  decodeReq 0b0000100100000000#16 = .ok .getAddr ∧
  decodeReq 0b0000101000000000#16 = .error (.reservedOpsel 0x0A#8) ∧
  decodeCmd 0b0010010000010110#16 = .ok .cmdMeasLow ∧
  decodeCmd 0b1111001100101101#16 = .ok .cmdReadStatus ∧
  decodeFrame [0b00110000#8, 0b01101101#8] = .ok .cmdHeaterOn ∧
  decodeTableWord 16 0x3780 = some .cmdReadSerial

/-- The commands the operations send are the rows of opcode_table.json, for either setting of P_CLOCK_STRETCH (the
codes are the spec's defaults, general knowledge, log entry 7). -/
def Obligations.OperationsSendTheirRow : Prop :=
  ∀ (s : State) (stretch : Bool),
    (∃ w after, (accept (defaultConfig stretch) .probe s).pos = .command w after ∧ decodeCmd w = .ok .cmdReadStatus) ∧
    (∃ w after, (accept (defaultConfig stretch) .readSerial s).pos = .command w after ∧
      decodeCmd w = .ok .cmdReadSerial) ∧
    (∃ w after, (accept (defaultConfig stretch) .heaterOn s).pos = .command w after ∧ decodeCmd w = .ok .cmdHeaterOn) ∧
    (∃ w after, (accept (defaultConfig stretch) .heaterOff s).pos = .command w after ∧
      decodeCmd w = .ok .cmdHeaterOff) ∧
    (∀ i, i = .startMeas ∨ i = .measBlocking →
      ∃ w after, (accept (defaultConfig stretch) i s).pos = .command w after ∧
        decodeCmd w = .ok (match s.repMode, stretch with
          | .high, false => .cmdMeasHigh
          | .medium, false => .cmdMeasMedium
          | .low, false => .cmdMeasLow
          | .high, true => .cmdMeasHighCs
          | .medium, true => .cmdMeasMediumCs
          | .low, true => .cmdMeasLowCs))

/-! ### The operations -/

/-- R60, R36: SET_REP stores the decoded mode, 1 Medium, 2 Low, anything else High, touches no port and responds OK;
nothing else changes. -/
def Obligations.SetRepResult : Prop :=
  ∀ (s : State) (arg : Byte), s.busy = false →
    exec (.setRep arg) s = .next { s with
      repMode := if arg.toNat = 1 then .medium else if arg.toNat = 2 then .low else .high
      responses := s.responses ++ [{ status := built.stOk, data := .none }] }

/-- R61, R41: START_MEAS writes the command of the repeatability mode, once, and responds with the write's status;
nothing else changes. -/
def Obligations.StartMeasResult : Prop :=
  ∀ (s : State), s.busy = false →
    let cmd : Word := match s.repMode with
      | .high => built.cmdMeasHigh
      | .medium => built.cmdMeasMedium
      | .low => built.cmdMeasLow
    exec .startMeas s = .next { s with
      engine := s.engine.afterWrite
      trace := s.trace ++ [.write built.devAddr [hiByte cmd, loByte cmd] s.engine.writeStatus]
      responses := s.responses ++ [{ status := s.engine.writeStatus, data := .none }] }

/-- R62: READ_MEAS makes one read of 3 bytes. It responds OK with TEMP = TConv of the word when the read is OK and its
CRC byte is accepted, else with the engine's status or CRC_FAIL and some TEMP; nothing else changes. -/
def Obligations.ReadMeasResult : Prop :=
  ∀ (s : State), s.busy = false →
    let st := s.engine.readStatus
    let buf := s.engine.readByte
    let tr := s.trace ++ [.read built.devAddr 3 st [buf 0, buf 1, buf 2]]
    (st = built.stOk → built.crc8 [buf 0, buf 1] = buf 2 →
      exec .readMeas s = .next { s with
        engine := s.engine.afterRead
        trace := tr
        responses := s.responses ++ [{ status := built.stOk, data := .temp (tConv (wordOf (buf 0) (buf 1))) }] }) ∧
    (st ≠ built.stOk → ∃ v d,
      exec .readMeas s = .next { s with
        engine := s.engine.afterRead
        trace := tr
        responses := s.responses ++ [{ status := st, data := .temp v }]
        draws := d }) ∧
    (st = built.stOk → built.crc8 [buf 0, buf 1] ≠ buf 2 → ∃ v d,
      exec .readMeas s = .next { s with
        engine := s.engine.afterRead
        trace := tr
        responses := s.responses ++ [{ status := built.stCrcFail, data := .temp v }]
        draws := d })

/-- R63: MEAS_BLOCKING writes the measurement command; a failed write ends it with the write's status, no delay and no
read; else it sleeps the measurement duration and reads as READ_MEAS does. Nothing else changes. -/
def Obligations.MeasBlockingResult : Prop :=
  ∀ (s : State), s.busy = false →
    let cmd : Word := match s.repMode with
      | .high => built.cmdMeasHigh
      | .medium => built.cmdMeasMedium
      | .low => built.cmdMeasLow
    let ws := s.engine.writeStatus
    let st := s.engine.readStatus
    let buf := s.engine.readByte
    let w := Event.write built.devAddr [hiByte cmd, loByte cmd] ws
    let full := s.trace ++ [w, .sleep built.measDurationUs, .read built.devAddr 3 st [buf 0, buf 1, buf 2]]
    (ws ≠ built.stOk → ∃ v d,
      exec .measBlocking s = .next { s with
        engine := s.engine.afterWrite
        trace := s.trace ++ [w]
        responses := s.responses ++ [{ status := ws, data := .temp v }]
        draws := d }) ∧
    (ws = built.stOk → st ≠ built.stOk → ∃ v d,
      exec .measBlocking s = .next { s with
        engine := s.engine.afterWrite.afterRead
        trace := full
        responses := s.responses ++ [{ status := st, data := .temp v }]
        draws := d }) ∧
    (ws = built.stOk → st = built.stOk → built.crc8 [buf 0, buf 1] ≠ buf 2 → ∃ v d,
      exec .measBlocking s = .next { s with
        engine := s.engine.afterWrite.afterRead
        trace := full
        responses := s.responses ++ [{ status := built.stCrcFail, data := .temp v }]
        draws := d }) ∧
    (ws = built.stOk → st = built.stOk → built.crc8 [buf 0, buf 1] = buf 2 →
      exec .measBlocking s = .next { s with
        engine := s.engine.afterWrite.afterRead
        trace := full
        responses := s.responses ++ [{ status := built.stOk, data := .temp (tConv (wordOf (buf 0) (buf 1))) }] })

/-- R59: PROBE writes the read-status command, sleeps, reads 3 bytes and checks the CRC; the status word is discarded; a
failed write ends it at once. Nothing else changes. -/
def Obligations.ProbeResult : Prop :=
  ∀ (s : State), s.busy = false →
    let ws := s.engine.writeStatus
    let st := s.engine.readStatus
    let buf := s.engine.readByte
    let w := Event.write built.devAddr [hiByte built.cmdReadStatus, loByte built.cmdReadStatus] ws
    let full := s.trace ++ [w, .sleep built.statusReadDelayUs, .read built.devAddr 3 st [buf 0, buf 1, buf 2]]
    (ws ≠ built.stOk →
      exec .probe s = .next { s with
        engine := s.engine.afterWrite
        trace := s.trace ++ [w]
        responses := s.responses ++ [{ status := ws, data := .none }] }) ∧
    (ws = built.stOk →
      exec .probe s = .next { s with
        engine := s.engine.afterWrite.afterRead
        trace := full
        responses := s.responses ++
          [{ status := if st ≠ built.stOk then st
                       else if built.crc8 [buf 0, buf 1] ≠ buf 2 then built.stCrcFail
                       else built.stOk
             data := .none }] })

/-- R64, R65: HEATER_ON and HEATER_OFF write their command, once, and respond with the write's status; nothing else
changes. -/
def Obligations.HeaterResult : Prop :=
  ∀ (s : State) (i : Instr) (cmd : Word), s.busy = false →
    (i = .heaterOn ∧ cmd = built.cmdHeaterOn) ∨ (i = .heaterOff ∧ cmd = built.cmdHeaterOff) →
    exec i s = .next { s with
      engine := s.engine.afterWrite
      trace := s.trace ++ [.write built.devAddr [hiByte cmd, loByte cmd] s.engine.writeStatus]
      responses := s.responses ++ [{ status := s.engine.writeStatus, data := .none }] }

/-- R66, R43: READ_SERIAL writes the serial-read command, sleeps, reads 6 bytes, checks both CRC bytes and assembles the
four data bytes big-endian; the first failure ends it with its status and some SERIAL. Nothing else changes. -/
def Obligations.ReadSerialResult : Prop :=
  ∀ (s : State), s.busy = false →
    let ws := s.engine.writeStatus
    let st := s.engine.readStatus
    let buf := s.engine.readByte
    let w := Event.write built.devAddr [hiByte built.cmdReadSerial, loByte built.cmdReadSerial] ws
    let full := s.trace ++ [w, .sleep built.serialReadDelayUs,
      .read built.devAddr 6 st [buf 0, buf 1, buf 2, buf 3, buf 4, buf 5]]
    (ws ≠ built.stOk → ∃ v d,
      exec .readSerial s = .next { s with
        engine := s.engine.afterWrite
        trace := s.trace ++ [w]
        responses := s.responses ++ [{ status := ws, data := .serial v }]
        draws := d }) ∧
    (ws = built.stOk → st ≠ built.stOk → ∃ v d,
      exec .readSerial s = .next { s with
        engine := s.engine.afterWrite.afterRead
        trace := full
        responses := s.responses ++ [{ status := st, data := .serial v }]
        draws := d }) ∧
    (ws = built.stOk → st = built.stOk →
      built.crc8 [buf 0, buf 1] ≠ buf 2 ∨ built.crc8 [buf 3, buf 4] ≠ buf 5 → ∃ v d,
      exec .readSerial s = .next { s with
        engine := s.engine.afterWrite.afterRead
        trace := full
        responses := s.responses ++ [{ status := built.stCrcFail, data := .serial v }]
        draws := d }) ∧
    (ws = built.stOk → st = built.stOk → built.crc8 [buf 0, buf 1] = buf 2 → built.crc8 [buf 3, buf 4] = buf 5 →
      exec .readSerial s = .next { s with
        engine := s.engine.afterWrite.afterRead
        trace := full
        responses := s.responses ++
          [{ status := built.stOk
             data := .serial (BitVec.ofNat 32 ((buf 0).toNat * 2 ^ 24 + (buf 1).toNat * 2 ^ 16
               + (buf 3).toNat * 2 ^ 8 + (buf 4).toNat)) }] })

/-- R67, R68: GET_VERSION responds (OK, P_VERSION) and GET_ADDR responds (OK, zext_8(P_DEV_ADDR)), bit 7 zero; no port
is touched and nothing else changes. -/
def Obligations.ConstantsResult : Prop :=
  ∀ (s : State), s.busy = false →
    exec .getVersion s = .next { s with
      responses := s.responses ++ [{ status := built.stOk, data := .version built.version }] } ∧
    exec .getAddr s = .next { s with
      responses := s.responses ++ [{ status := built.stOk, data := .addr (BitVec.ofNat 8 built.devAddr.toNat) }] }

/-- Each command word of format CMD, sent at the command phase of an operation, is WRITE_CMD (R53) of its row's code:
one write of its two bytes to DEV_ADDR, the engine's status unchanged, no other state written; a failed write leads to
the response with that status, a good one to the delay, or to the response where nothing follows. The codes are the
spec's defaults (general knowledge, log entry 7). -/
def Obligations.CommandWordResult : Prop :=
  ∀ (i : Instr) (code : Word) (s : State) (w : Word) (after : AfterCommand),
    (i, code) ∈ [(.cmdMeasHigh, 0x2400#16), (.cmdMeasMedium, 0x240B#16), (.cmdMeasLow, 0x2416#16),
      (.cmdMeasHighCs, 0x2C06#16), (.cmdMeasMediumCs, 0x2C0D#16), (.cmdMeasLowCs, 0x2C10#16),
      (Instr.cmdReadStatus, 0xF32D#16), (.cmdReadSerial, 0x3780#16),
      (.cmdHeaterOn, 0x306D#16), (.cmdHeaterOff, 0x3066#16)] →
    s.pos = .command w after →
    let st := s.engine.writeStatus
    ∃ t, exec i s = .next t ∧
      t.trace = s.trace ++ [.write built.devAddr
        [BitVec.ofNat 8 (code.toNat / 256), BitVec.ofNat 8 (code.toNat % 256)] st] ∧
      t.engine = s.engine.afterWrite ∧ t.repMode = s.repMode ∧ t.host = s.host ∧ t.responses = s.responses ∧
      (st ≠ built.stOk → ∃ r, t.pos = .answer r ∧ r.status = st) ∧
      (after = .respond → t.pos = .answer { status := st, data := .none } ∧ t.draws = s.draws) ∧
      (∀ us kind, st = built.stOk → after = .read us kind → t.pos = .delay us kind ∧ t.draws = s.draws)

/-- R54, R43: READ_WORDS, for every configuration and both counts: one read of 3 * count bytes whatever the outcome; a
transport failure unchanged; CRC_FAIL where any CRC byte is refused; else the words, most significant byte first. -/
def Obligations.ReadWordsResult : Prop :=
  ∀ (c : Config) (count : WordCount) (s : State),
    let n := match count with | .one => 1 | .two => 2
    let st := s.engine.readStatus
    let buf := s.engine.readByte
    (readWords c count s).2 = { s with
      engine := s.engine.afterRead
      trace := s.trace ++ [.read c.devAddr (3 * n) st ((List.range (3 * n)).map buf)] } ∧
    (st ≠ c.stOk → (readWords c count s).1 = .error st) ∧
    (st = c.stOk → (∃ i < n, c.crc8 [buf (3 * i), buf (3 * i + 1)] ≠ buf (3 * i + 2)) →
      (readWords c count s).1 = .error c.stCrcFail) ∧
    (st = c.stOk → (∀ i < n, c.crc8 [buf (3 * i), buf (3 * i + 1)] = buf (3 * i + 2)) →
      ∃ words, (readWords c count s).1 = .ok words ∧
        ∀ i < n, (words i).toNat = (buf (3 * i)).toNat * 256 + (buf (3 * i + 1)).toNat)

/-- R55, R53: DELAYED_READ_CMD, for every configuration, every command word, delay and count: one write of the command's
two bytes, most significant first; where the engine reports it OK the delay, also when it is 0, and the read, and what
the read gives; where not, the write's status, no delay and no read. -/
def Obligations.DelayedReadCommandResult : Prop :=
  ∀ (c : Config) (cmd : Word) (us : Nat) (count : WordCount) (s : State),
    let n := match count with | .one => 1 | .two => 2
    let ws := s.engine.writeStatus
    let st := s.engine.readStatus
    let buf := s.engine.readByte
    let w := Event.write c.devAddr [BitVec.ofNat 8 (cmd.toNat / 256), BitVec.ofNat 8 (cmd.toNat % 256)] ws
    writeCmd c cmd s = (ws, { s with engine := s.engine.afterWrite, trace := s.trace ++ [w] }) ∧
    (ws ≠ c.stOk → delayedReadCmd c cmd us count s
      = (.error ws, { s with engine := s.engine.afterWrite, trace := s.trace ++ [w] })) ∧
    (ws = c.stOk →
      (delayedReadCmd c cmd us count s).1 = (readWords c count s).1 ∧
      (delayedReadCmd c cmd us count s).2 = { s with
        engine := s.engine.afterWrite.afterRead
        trace := s.trace ++ [w, .sleep us, .read c.devAddr (3 * n) st ((List.range (3 * n)).map buf)] })

/-- "Flipping any CRC byte in a simulated response must force a CrcFail status, never OK": for every configuration, if
READ_WORDS accepts a frame, it answers CRC_FAIL on every frame that differs from it in one CRC byte. -/
def Obligations.FlippedCrcByteFails : Prop :=
  ∀ (c : Config) (count : WordCount) (s t : State) (i : Nat) (words : Nat → Word),
    i < count.words → (readWords c count s).1 = .ok words → t.engine.readStatus = c.stOk →
    (∀ j, j ≠ 3 * i + 2 → t.engine.readByte j = s.engine.readByte j) →
    t.engine.readByte (3 * i + 2) ≠ s.engine.readByte (3 * i + 2) →
    (readWords c count t).1 = .error c.stCrcFail

/-- For every configuration that meets R7's constraint, the response of each reading operation has STATUS OK if and only
if every transaction of it is reported OK and every CRC byte is accepted. -/
def Obligations.StatusOkIff : Prop :=
  ∀ (c : Config) (s : State), c.wellFormed = true →
    let ws := s.engine.writeStatus
    let st := s.engine.readStatus
    let crc (i : Nat) := c.crc8 [s.engine.readByte (3 * i), s.engine.readByte (3 * i + 1)] = s.engine.readByte (3 * i + 2)
    ((probe c s).1.status = c.stOk ↔ ws = c.stOk ∧ st = c.stOk ∧ crc 0) ∧
    ((readMeas c s).1.status = c.stOk ↔ st = c.stOk ∧ crc 0) ∧
    ((measBlocking c s).1.status = c.stOk ↔ ws = c.stOk ∧ st = c.stOk ∧ crc 0) ∧
    ((readSerial c s).1.status = c.stOk ↔ ws = c.stOk ∧ st = c.stOk ∧ crc 0 ∧ crc 1)

/-- R71: which statuses each operation can respond with: OK alone without I/O; the engine's for a command-only operation;
OK, CRC_FAIL or the engine's for one that reads. BAD_DATA and UNKNOWN_DEVICE come from nowhere but the engine. -/
def Obligations.StatusComesFromHere : Prop :=
  ∀ (i : Instr) (s : State), i.wellFormed .req = true → s.busy = false →
    ∃ t r, exec i s = .next t ∧ t.responses = s.responses ++ [r] ∧
      match i with
      | .setRep _ | .getVersion | .getAddr => r.status = built.stOk
      | .startMeas | .heaterOn | .heaterOff => r.status = s.engine.writeStatus
      | .readMeas => r.status = built.stOk ∨ r.status = built.stCrcFail ∨ r.status = s.engine.readStatus
      | _ => r.status = built.stOk ∨ r.status = built.stCrcFail ∨ r.status = s.engine.writeStatus
          ∨ r.status = s.engine.readStatus

/-- R69: SET_REP, GET_VERSION and GET_ADDR touch no outward port, whatever the engine would answer, and give one
response; they are accepted only when BUSY is false. That a meaning called at a busy block answers the refusal
requestWhileBusy is the model's choice, log entry 13: R15 and R83 (b) hold the request, and R69 says only that it is not
accepted. -/
def Obligations.NoIoOperationsTouchNoPort : Prop :=
  ∀ (i : Instr) (s : State), ((∃ arg, i = .setRep arg) ∨ i = .getVersion ∨ i = .getAddr) →
    (s.busy = false → ∃ t r, exec i s = .next t ∧ t.trace = s.trace ∧ t.engine = s.engine ∧
      t.responses = s.responses ++ [r] ∧ r.status = built.stOk) ∧
    (s.busy = true → exec i s = .refused .requestWhileBusy)

/-! ### The converter -/

/-- R46: TConv(t) = ((21875 * t) >> 13) - 45000 on mathematical integers, from -45000 to 129997, for every t. -/
def Obligations.ConverterFormula : Prop :=
  ∀ (t : Word), (tConv t).toInt = ((21875 * t.toNat / 2 ^ 13 : Nat) : Int) - 45000 ∧
    -45000 ≤ (tConv t).toInt ∧ (tConv t).toInt ≤ 129997

/-- R48: TConv is the temperature 175 * t / 65536 - 45 in thousandths, rounded toward minus infinity, and so is off by
less than one millidegree, never upward. -/
def Obligations.ConverterIsFloorOfTemperature : Prop :=
  ∀ (t : Word),
    (tConv t).toInt = ⌊(1000 : ℚ) * (175 * (t.toNat : ℚ) / 65536 - 45)⌋ ∧
    (-1 : ℚ) < ((tConv t).toInt : ℚ) - 1000 * (175 * (t.toNat : ℚ) / 65536 - 45) ∧
    ((tConv t).toInt : ℚ) - 1000 * (175 * (t.toNat : ℚ) / 65536 - 45) ≤ 0

/-- R49: TConv is strictly increasing with steps of 2 or 3, its least and greatest values are -45000 and 129997, it never
gives 0, and it lies in [5000, 45000] exactly for the ticks 18725 to 33704. -/
def Obligations.ConverterProperties : Prop :=
  (∀ (t u : Word), t.toNat < u.toNat → (tConv t).toInt < (tConv u).toInt) ∧
  (∀ (t : Word), t.toNat < 65535 →
    (tConv (t + 1)).toInt = (tConv t).toInt + 2 ∨ (tConv (t + 1)).toInt = (tConv t).toInt + 3) ∧
  (tConv 0#16).toInt = -45000 ∧ (tConv 65535#16).toInt = 129997 ∧
  (∀ (t : Word), (tConv t).toInt ≠ 0) ∧ (tConv 16852#16).toInt = -1 ∧ (tConv 16853#16).toInt = 2 ∧
  (∀ (t : Word), (5000 ≤ (tConv t).toInt ∧ (tConv t).toInt ≤ 45000) ↔ (18725 ≤ t.toNat ∧ t.toNat ≤ 33704)) ∧
  (tConv 18724#16).toInt = 4998 ∧ (tConv 18725#16).toInt = 5001 ∧ (tConv 33704#16).toInt = 44999 ∧
  (tConv 33705#16).toInt = 45002

/-- Bits 31 to 18 of TEMP always equal bit 17: the value fits 18 bits in two's complement. -/
def Obligations.ConverterFitsEighteenBits : Prop :=
  ∀ (t : Word) (k : Nat), 18 ≤ k → k < 32 → (tConv t).getLsbD k = (tConv t).getLsbD 17

/-! ### Rules about the whole machine -/

/-- REP_MODE is written by SET_REP and by reset, and by nothing else: a step that changes it is one of the two. -/
def Obligations.OnlySetRepAndResetWriteRepMode : Prop :=
  ∀ (s t : State), step s = .next t → t.repMode ≠ s.repMode →
    s.busy = false ∧
    ((s.host.head? = some .reset ∧ t.repMode = .high) ∨
      ∃ w arg, s.host.head? = some (.request w) ∧ decodeReq w = .ok (.setRep arg) ∧ t.repMode = decodeRep arg)

/-- REP_MODE is read by START_MEAS and MEAS_BLOCKING, and by nothing else: any other operation does the same whatever
REP_MODE is, and leaves it as it found it but for SET_REP, which overwrites it. -/
def Obligations.OnlyMeasurementsReadRepMode : Prop :=
  ∀ (i : Instr) (s : State) (m : RepMode), i.wellFormed .req = true → i ≠ .startMeas → i ≠ .measBlocking →
    s.busy = false →
    ∃ t u, exec i s = .next t ∧ exec i { s with repMode := m } = .next u ∧ u = { t with repMode := u.repMode } ∧
      ((∃ arg, i = .setRep arg ∧ u.repMode = t.repMode) ∨ (t.repMode = s.repMode ∧ u.repMode = m))

/-- No step reads the history: two states that differ in the transactions made and the responses given, and agree in
everything else, REP_MODE among it, step alike, append the same events and the same responses, and stop alike. REP_MODE
is R10's own exception: a value that an earlier SET_REP left and that is read. That the responses given are kept in a
list, and that one step is what appends to both lists, are the model's choice, log entries 15 and 5. -/
def Obligations.PastIsNotRead : Prop :=
  ∀ (s : State) (past : List Event) (said : List Response),
    match step s with
    | .next t => ∃ events given,
        t.trace = s.trace ++ events ∧ t.responses = s.responses ++ given ∧
        step { s with trace := past, responses := said }
          = .next { t with trace := past ++ events, responses := said ++ given }
    | .fault r => step { s with trace := past, responses := said } = .fault r
    | .refused r => step { s with trace := past, responses := said } = .refused r

/-- R27, R14: every operation is its sequence of transactions. The meaning of an operation, written from its pseudocode,
is what accepting the request and then making one transaction after another comes to, and each micro-step makes at most
one transaction. The micro-steps and their size are the model's choice, log entry 5; what happens at the moment of
acceptance, and that the CRC checks belong to the read's micro-step, is deduced, log entry 20. -/
def Obligations.SequencerRefinesOperation : Prop :=
  (∀ (i : Instr) (s : State), i.wellFormed .req = true → s.busy = false →
    exec i s = .next (finish built (accept built i s))) ∧
  (∀ (c : Config) (s : State), (microStep c s).trace = s.trace ∨ ∃ e, (microStep c s).trace = s.trace ++ [e])

/-- Every step keeps the bus legal: every transaction ever made goes to DEV_ADDR, a write carries the two bytes of one of
the seven command codes, a read takes 3 or 6 bytes, a delay is one of the three. -/
def Obligations.StepKeepsBusLegal : Prop :=
  ∀ (s t : State), s.BusLegal → step s = .next t → t.BusLegal

/-- The reset state's bus is legal. -/
def Obligations.ResetIsBusLegal : Prop := State.reset.BusLegal

/-- Every step keeps it that a delay comes only after a write that the engine reported OK (R92). -/
def Obligations.StepKeepsSleepsAfterWrites : Prop :=
  ∀ (s t : State), s.SleepsFollowWrites → step s = .next t → t.SleepsFollowWrites

/-- In the reset state no delay has been. -/
def Obligations.ResetHasNoSleep : Prop := State.reset.SleepsFollowWrites
end

