-- ==== Sys2Proof/Laws/State.lean ====
section
/-! SUPPORT. What each shared operation does to each field of the state, one lemma a field, so that no proof unfolds a
record update. -/

namespace Sys2Proof.Machine

/-! ### The engine -/

@[simp] theorem readStatus_afterWrite (e : Engine) : e.afterWrite.readStatus = e.readStatus := rfl
@[simp] theorem readByte_afterWrite (e : Engine) (i : Nat) : e.afterWrite.readByte i = e.readByte i := rfl
@[simp] theorem writeStatus_afterRead (e : Engine) : e.afterRead.writeStatus = e.writeStatus := rfl

/-! ### memWrite and writeCmd -/

@[simp] theorem memWrite_status (a : DevAddr) (v : List Byte) (s : State) : (memWrite a v s).1 = s.engine.writeStatus := rfl
@[simp] theorem memWrite_repMode (a : DevAddr) (v : List Byte) (s : State) : (memWrite a v s).2.repMode = s.repMode := rfl
@[simp] theorem memWrite_pos (a : DevAddr) (v : List Byte) (s : State) : (memWrite a v s).2.pos = s.pos := rfl
@[simp] theorem memWrite_host (a : DevAddr) (v : List Byte) (s : State) : (memWrite a v s).2.host = s.host := rfl
@[simp] theorem memWrite_engine (a : DevAddr) (v : List Byte) (s : State) : (memWrite a v s).2.engine = s.engine.afterWrite := rfl
@[simp] theorem memWrite_trace (a : DevAddr) (v : List Byte) (s : State) :
    (memWrite a v s).2.trace = s.trace ++ [.write a v s.engine.writeStatus] := rfl
@[simp] theorem memWrite_responses (a : DevAddr) (v : List Byte) (s : State) : (memWrite a v s).2.responses = s.responses := rfl
@[simp] theorem memWrite_draws (a : DevAddr) (v : List Byte) (s : State) : (memWrite a v s).2.draws = s.draws := rfl

@[simp] theorem writeCmd_status (c : Config) (w : Word) (s : State) : (writeCmd c w s).1 = s.engine.writeStatus := rfl
@[simp] theorem writeCmd_repMode (c : Config) (w : Word) (s : State) : (writeCmd c w s).2.repMode = s.repMode := rfl
@[simp] theorem writeCmd_pos (c : Config) (w : Word) (s : State) : (writeCmd c w s).2.pos = s.pos := rfl
@[simp] theorem writeCmd_host (c : Config) (w : Word) (s : State) : (writeCmd c w s).2.host = s.host := rfl
@[simp] theorem writeCmd_engine (c : Config) (w : Word) (s : State) : (writeCmd c w s).2.engine = s.engine.afterWrite := rfl
@[simp] theorem writeCmd_trace (c : Config) (w : Word) (s : State) :
    (writeCmd c w s).2.trace = s.trace ++ [.write c.devAddr [hiByte w, loByte w] s.engine.writeStatus] := rfl
@[simp] theorem writeCmd_responses (c : Config) (w : Word) (s : State) : (writeCmd c w s).2.responses = s.responses := rfl
@[simp] theorem writeCmd_draws (c : Config) (w : Word) (s : State) : (writeCmd c w s).2.draws = s.draws := rfl

/-! ### memRead -/

@[simp] theorem memRead_status (a : DevAddr) (n : Nat) (s : State) : (memRead a n s).1.1 = s.engine.readStatus := rfl
@[simp] theorem memRead_bytes (a : DevAddr) (n : Nat) (s : State) : (memRead a n s).1.2 = s.engine.readByte := rfl
@[simp] theorem memRead_repMode (a : DevAddr) (n : Nat) (s : State) : (memRead a n s).2.repMode = s.repMode := rfl
@[simp] theorem memRead_pos (a : DevAddr) (n : Nat) (s : State) : (memRead a n s).2.pos = s.pos := rfl
@[simp] theorem memRead_host (a : DevAddr) (n : Nat) (s : State) : (memRead a n s).2.host = s.host := rfl
@[simp] theorem memRead_engine (a : DevAddr) (n : Nat) (s : State) : (memRead a n s).2.engine = s.engine.afterRead := rfl
@[simp] theorem memRead_trace (a : DevAddr) (n : Nat) (s : State) :
    (memRead a n s).2.trace
      = s.trace ++ [.read a n s.engine.readStatus ((List.range n).map s.engine.readByte)] := rfl
@[simp] theorem memRead_responses (a : DevAddr) (n : Nat) (s : State) : (memRead a n s).2.responses = s.responses := rfl
@[simp] theorem memRead_draws (a : DevAddr) (n : Nat) (s : State) : (memRead a n s).2.draws = s.draws := rfl

/-! ### sleep -/

@[simp] theorem sleep_repMode (us : Nat) (s : State) : (sleep us s).repMode = s.repMode := rfl
@[simp] theorem sleep_pos (us : Nat) (s : State) : (sleep us s).pos = s.pos := rfl
@[simp] theorem sleep_host (us : Nat) (s : State) : (sleep us s).host = s.host := rfl
@[simp] theorem sleep_engine (us : Nat) (s : State) : (sleep us s).engine = s.engine := rfl
@[simp] theorem sleep_trace (us : Nat) (s : State) : (sleep us s).trace = s.trace ++ [.sleep us] := rfl
@[simp] theorem sleep_responses (us : Nat) (s : State) : (sleep us s).responses = s.responses := rfl
@[simp] theorem sleep_draws (us : Nat) (s : State) : (sleep us s).draws = s.draws := rfl

/-! ### unspecified32 -/

@[simp] theorem unspecified32_repMode (s : State) : (unspecified32 s).2.repMode = s.repMode := rfl
@[simp] theorem unspecified32_pos (s : State) : (unspecified32 s).2.pos = s.pos := rfl
@[simp] theorem unspecified32_host (s : State) : (unspecified32 s).2.host = s.host := rfl
@[simp] theorem unspecified32_engine (s : State) : (unspecified32 s).2.engine = s.engine := rfl
@[simp] theorem unspecified32_trace (s : State) : (unspecified32 s).2.trace = s.trace := rfl
@[simp] theorem unspecified32_responses (s : State) : (unspecified32 s).2.responses = s.responses := rfl

/-! ### give, prepare, resetBlock -/

@[simp] theorem give_repMode (p : Response × State) : (give p).repMode = p.2.repMode := rfl
@[simp] theorem give_pos (p : Response × State) : (give p).pos = .idle := rfl
@[simp] theorem give_host (p : Response × State) : (give p).host = p.2.host := rfl
@[simp] theorem give_engine (p : Response × State) : (give p).engine = p.2.engine := rfl
@[simp] theorem give_trace (p : Response × State) : (give p).trace = p.2.trace := rfl
@[simp] theorem give_responses (p : Response × State) : (give p).responses = p.2.responses ++ [p.1] := rfl
@[simp] theorem give_draws (p : Response × State) : (give p).draws = p.2.draws := rfl

@[simp] theorem prepare_repMode (p : Response × State) : (prepare p).repMode = p.2.repMode := rfl
@[simp] theorem prepare_pos (p : Response × State) : (prepare p).pos = .answer p.1 := rfl
@[simp] theorem prepare_host (p : Response × State) : (prepare p).host = p.2.host := rfl
@[simp] theorem prepare_engine (p : Response × State) : (prepare p).engine = p.2.engine := rfl
@[simp] theorem prepare_trace (p : Response × State) : (prepare p).trace = p.2.trace := rfl
@[simp] theorem prepare_responses (p : Response × State) : (prepare p).responses = p.2.responses := rfl
@[simp] theorem prepare_draws (p : Response × State) : (prepare p).draws = p.2.draws := rfl

@[simp] theorem resetBlock_repMode (s : State) : (resetBlock s).repMode = .high := rfl
@[simp] theorem resetBlock_pos (s : State) : (resetBlock s).pos = .idle := rfl
@[simp] theorem resetBlock_host (s : State) : (resetBlock s).host = s.host := rfl
@[simp] theorem resetBlock_engine (s : State) : (resetBlock s).engine = s.engine := rfl
@[simp] theorem resetBlock_trace (s : State) : (resetBlock s).trace = s.trace := rfl
@[simp] theorem resetBlock_responses (s : State) : (resetBlock s).responses = s.responses := rfl
@[simp] theorem resetBlock_draws (s : State) : (resetBlock s).draws = s.draws := rfl

/-! ### BUSY -/

theorem busy_eq_false_iff (s : State) : s.busy = false ↔ s.pos = .idle := by
  simp [State.busy]

theorem busy_eq_true_iff (s : State) : s.busy = true ↔ s.pos ≠ .idle := by
  simp [State.busy]

@[simp] theorem give_busy (p : Response × State) : (give p).busy = false := rfl

end Sys2Proof.Machine
end

