-- ==== Sys2Proof/Laws/Ops.lean ====
section
/-! SUPPORT. What each shared operation can do, said once: the proofs about operations cite these and unfold nothing. -/

namespace Sys2Proof.Machine

/-! ### Bytes and words -/

theorem wordOf_toNat (hi lo : Byte) : (wordOf hi lo).toNat = 256 * hi.toNat + lo.toNat := by
  have h := lo.isLt
  simp only [wordOf, BitVec.toNat_append]
  rw [← Nat.shiftLeft_add_eq_or_of_lt h, Nat.shiftLeft_eq]
  omega

theorem hiByte_toNat (w : Word) : (hiByte w).toNat = w.toNat / 256 := by
  have := w.isLt
  simp only [hiByte, BitVec.extractLsb'_toNat, Nat.shiftRight_eq_div_pow]
  omega

theorem loByte_toNat (w : Word) : (loByte w).toNat = w.toNat % 256 := by
  simp only [loByte, BitVec.extractLsb'_toNat, Nat.shiftRight_zero]

@[simp] theorem hiByte_wordOf (hi lo : Byte) : hiByte (wordOf hi lo) = hi := by
  apply BitVec.eq_of_toNat_eq
  have := lo.isLt
  rw [hiByte_toNat, wordOf_toNat]
  omega

@[simp] theorem loByte_wordOf (hi lo : Byte) : loByte (wordOf hi lo) = lo := by
  apply BitVec.eq_of_toNat_eq
  have := lo.isLt
  rw [loByte_toNat, wordOf_toNat]
  omega

@[simp] theorem wordOf_hiByte_loByte (w : Word) : wordOf (hiByte w) (loByte w) = w := by
  apply BitVec.eq_of_toNat_eq
  rw [wordOf_toNat, hiByte_toNat, loByte_toNat]
  omega

/-! ### Statuses and CRCs -/

@[simp] theorem statusOk_iff (c : Config) (st : Status) : statusOk c st = true ↔ st = c.stOk := by
  simp [statusOk]

theorem wordCrcOk_iff (c : Config) (buf : Nat → Byte) (i : Nat) :
    wordCrcOk c buf i = true ↔ c.crc8 [buf (3 * i), buf (3 * i + 1)] = buf (3 * i + 2) := by
  simp [wordCrcOk, crcCheck]

theorem frameCrcOk_iff (c : Config) (count : WordCount) (buf : Nat → Byte) :
    frameCrcOk c count buf = true ↔
      ∀ i < count.words, c.crc8 [buf (3 * i), buf (3 * i + 1)] = buf (3 * i + 2) := by
  simp [frameCrcOk, wordCrcOk_iff]

/-- A configuration that meets R7's constraint tells OK from CRC_FAIL. -/
theorem stCrcFail_ne_stOk {c : Config} (h : c.wellFormed = true) : c.stCrcFail ≠ c.stOk := by
  simp only [Config.wellFormed, Bool.and_eq_true, decide_eq_true_eq] at h
  exact fun e => h.1.1.1.1.2 e.symm

theorem built_wellFormed : built.wellFormed = true := by decide

/-! ### READ_WORDS: the state it leaves, and its three outcomes -/

theorem readWords_state (c : Config) (count : WordCount) (s : State) :
    (readWords c count s).2 = (memRead c.devAddr (3 * count.words) s).2 := by
  simp only [readWords]; split
  · split <;> rfl
  · rfl

theorem readWords_transport {c : Config} {s : State} (count : WordCount) (h : s.engine.readStatus ≠ c.stOk) :
    (readWords c count s).1 = .error s.engine.readStatus := by
  simp [readWords, h]

theorem readWords_mismatch {c : Config} {s : State} {count : WordCount} (h : s.engine.readStatus = c.stOk)
    (hcrc : frameCrcOk c count s.engine.readByte = false) :
    (readWords c count s).1 = .error c.stCrcFail := by
  simp [readWords, h, hcrc]

theorem readWords_good {c : Config} {s : State} {count : WordCount} (h : s.engine.readStatus = c.stOk)
    (hcrc : frameCrcOk c count s.engine.readByte = true) :
    (readWords c count s).1 = .ok (frameWord s.engine.readByte) := by
  simp [readWords, h, hcrc]

/-- All READ_WORDS can answer (R54, R57). -/
theorem readWords_cases (c : Config) (count : WordCount) (s : State) :
    (s.engine.readStatus ≠ c.stOk ∧ (readWords c count s).1 = .error s.engine.readStatus) ∨
    (s.engine.readStatus = c.stOk ∧ frameCrcOk c count s.engine.readByte = false ∧
      (readWords c count s).1 = .error c.stCrcFail) ∨
    (s.engine.readStatus = c.stOk ∧ frameCrcOk c count s.engine.readByte = true ∧
      (readWords c count s).1 = .ok (frameWord s.engine.readByte)) := by
  by_cases h : s.engine.readStatus = c.stOk
  · cases hcrc : frameCrcOk c count s.engine.readByte
    · exact .inr (.inl ⟨h, rfl, readWords_mismatch h hcrc⟩)
    · exact .inr (.inr ⟨h, rfl, readWords_good h hcrc⟩)
  · exact .inl ⟨h, readWords_transport count h⟩

/-- What READ_WORDS answers, as a function of the engine alone. -/
def readOutcome (c : Config) (count : WordCount) (e : Engine) : WordsOrStatus :=
  if e.readStatus = c.stOk then
    if frameCrcOk c count e.readByte then .ok (frameWord e.readByte) else .error c.stCrcFail
  else .error e.readStatus

/-- READ_WORDS as one answer and one state, without a case split. -/
theorem readWords_eq (c : Config) (count : WordCount) (s : State) :
    readWords c count s
      = (readOutcome c count s.engine, (memRead c.devAddr (3 * count.words) s).2) := by
  by_cases h : s.engine.readStatus = c.stOk
  · cases hcrc : frameCrcOk c count s.engine.readByte <;> simp [readWords, readOutcome, h, hcrc]
  · simp [readWords, readOutcome, h]

@[simp] theorem readOutcome_afterWrite (c : Config) (count : WordCount) (e : Engine) :
    readOutcome c count e.afterWrite = readOutcome c count e := rfl

/-! ### DELAYED_READ_CMD -/

theorem delayedReadCmd_ok {c : Config} {s : State} (cmd : Word) (us : Nat) (count : WordCount)
    (h : s.engine.writeStatus = c.stOk) :
    delayedReadCmd c cmd us count s = readWords c count (sleep us (writeCmd c cmd s).2) := by
  simp [delayedReadCmd, h]

theorem delayedReadCmd_fail {c : Config} {s : State} (cmd : Word) (us : Nat) (count : WordCount)
    (h : s.engine.writeStatus ≠ c.stOk) :
    delayedReadCmd c cmd us count s = (.error s.engine.writeStatus, (writeCmd c cmd s).2) := by
  simp [delayedReadCmd, h]

/-! ### The response of a read: the block's own state and the bus are as before it -/

/-- The response of a read leaves the state as it was but for the count of free results. -/
theorem readResponse_state (c : Config) (kind : ReadKind) (w : WordsOrStatus) (s : State) :
    ∃ d, (readResponse c kind w s).2 = { s with draws := d } := by
  cases kind <;> cases w <;> exact ⟨_, rfl⟩

@[simp] theorem readResponse_repMode (c : Config) (kind : ReadKind) (w : WordsOrStatus) (s : State) :
    (readResponse c kind w s).2.repMode = s.repMode := by cases kind <;> cases w <;> rfl
@[simp] theorem readResponse_pos (c : Config) (kind : ReadKind) (w : WordsOrStatus) (s : State) :
    (readResponse c kind w s).2.pos = s.pos := by cases kind <;> cases w <;> rfl
@[simp] theorem readResponse_host (c : Config) (kind : ReadKind) (w : WordsOrStatus) (s : State) :
    (readResponse c kind w s).2.host = s.host := by cases kind <;> cases w <;> rfl
@[simp] theorem readResponse_engine (c : Config) (kind : ReadKind) (w : WordsOrStatus) (s : State) :
    (readResponse c kind w s).2.engine = s.engine := by cases kind <;> cases w <;> rfl
@[simp] theorem readResponse_trace (c : Config) (kind : ReadKind) (w : WordsOrStatus) (s : State) :
    (readResponse c kind w s).2.trace = s.trace := by cases kind <;> cases w <;> rfl
@[simp] theorem readResponse_responses (c : Config) (kind : ReadKind) (w : WordsOrStatus) (s : State) :
    (readResponse c kind w s).2.responses = s.responses := by cases kind <;> cases w <;> rfl

theorem readResponse_error_status (c : Config) (kind : ReadKind) (st : Status) (s : State) :
    (readResponse c kind (.error st) s).1.status = st := by
  cases kind <;> rfl

theorem readResponse_ok_status (c : Config) (kind : ReadKind) (w : Nat → Word) (s : State) :
    (readResponse c kind (.ok w) s).1.status = c.stOk := by
  cases kind <;> rfl

/-! ### The host port -/

theorem onHostPort_idle {s : State} (run : State → State) (h : s.busy = false) : onHostPort s run = .next (run s) := by
  simp [onHostPort, h]

theorem onHostPort_busy {s : State} (run : State → State) (h : s.busy = true) :
    onHostPort s run = .refused .requestWhileBusy := by
  simp [onHostPort, h]

theorem exec_probe_idle {s : State} (h : s.busy = false) : exec .probe s = .next (give (probe built s)) := by
  simp only [exec, execProbe, onHostPort_idle _ h]

theorem exec_setRep_idle {s : State} (arg : Byte) (h : s.busy = false) :
    exec (.setRep arg) s = .next (give (setRep built arg s)) := by
  simp only [exec, execSetRep, onHostPort_idle _ h]

theorem exec_startMeas_idle {s : State} (h : s.busy = false) :
    exec .startMeas s = .next (give (commandOnly built (measCmd built s.repMode) s)) := by
  simp only [exec, execStartMeas, onHostPort_idle _ h]; rfl

theorem exec_readMeas_idle {s : State} (h : s.busy = false) : exec .readMeas s = .next (give (readMeas built s)) := by
  simp only [exec, execReadMeas, onHostPort_idle _ h]

theorem exec_measBlocking_idle {s : State} (h : s.busy = false) :
    exec .measBlocking s = .next (give (measBlocking built s)) := by
  simp only [exec, execMeasBlocking, onHostPort_idle _ h]

theorem exec_heaterOn_idle {s : State} (h : s.busy = false) :
    exec .heaterOn s = .next (give (commandOnly built built.cmdHeaterOn s)) := by
  simp only [exec, execHeaterOn, onHostPort_idle _ h]

theorem exec_heaterOff_idle {s : State} (h : s.busy = false) :
    exec .heaterOff s = .next (give (commandOnly built built.cmdHeaterOff s)) := by
  simp only [exec, execHeaterOff, onHostPort_idle _ h]

theorem exec_readSerial_idle {s : State} (h : s.busy = false) :
    exec .readSerial s = .next (give (readSerial built s)) := by
  simp only [exec, execReadSerial, onHostPort_idle _ h]

theorem exec_getVersion_idle {s : State} (h : s.busy = false) :
    exec .getVersion s = .next (give (getVersion built s)) := by
  simp only [exec, execGetVersion, onHostPort_idle _ h]

theorem exec_getAddr_idle {s : State} (h : s.busy = false) : exec .getAddr s = .next (give (getAddr built s)) := by
  simp only [exec, execGetAddr, onHostPort_idle _ h]

/-- Every command word is WRITE_CMD of its own code at the command phase. -/
theorem exec_command (i : Instr) (s : State) (h : i.wellFormed .cmd = true) :
    exec i s = atCommandPhase (encode i) s := by
  cases i <;> first | rfl | simp [Instr.wellFormed, Instr.format] at h

theorem atCommandPhase_command {s : State} {w : Word} {after : AfterCommand} (code : Word)
    (h : s.pos = .command w after) : atCommandPhase code s = .next (sendCommand built code after s) := by
  simp [atCommandPhase, h]

/-! ### The sequencer: what is left of an operation, by its position -/

@[simp] theorem microStep_idle {s : State} (c : Config) (h : s.pos = .idle) : microStep c s = s := by
  simp [microStep, h]

@[simp] theorem microStep_give (c : Config) (p : Response × State) : microStep c (give p) = give p :=
  microStep_idle c rfl

theorem microStep_answer {s : State} {r : Response} (c : Config) (h : s.pos = .answer r) :
    microStep c s = give (r, s) := by
  simp [microStep, h]

theorem microStep_read {s : State} {kind : ReadKind} (c : Config) (h : s.pos = .read kind) :
    microStep c s
      = prepare (readResponse c kind (readWords c kind.count s).1 (readWords c kind.count s).2) := by
  simp [microStep, h]

theorem microStep_delay {s : State} {us : Nat} {kind : ReadKind} (c : Config) (h : s.pos = .delay us kind) :
    microStep c s = { sleep us s with pos := .read kind } := by
  simp [microStep, h]

theorem microStep_command {s : State} {w : Word} {after : AfterCommand} (c : Config) (h : s.pos = .command w after) :
    microStep c s = sendCommand c w after s := by
  simp [microStep, h]

theorem finish_idle {s : State} (c : Config) (h : s.pos = .idle) : finish c s = s := by
  simp [finish, h]

theorem finish_answer {s : State} {r : Response} (c : Config) (h : s.pos = .answer r) : finish c s = give (r, s) := by
  simp [finish, microStep_answer c h]

theorem finish_read {s : State} {kind : ReadKind} (c : Config) (h : s.pos = .read kind) :
    finish c s = give ((readResponse c kind (readWords c kind.count s).1 (readWords c kind.count s).2).1,
      prepare (readResponse c kind (readWords c kind.count s).1 (readWords c kind.count s).2)) := by
  simp only [finish, microStep_read c h]
  rw [microStep_answer c (prepare_pos _)]
  simp

theorem finish_delay {s : State} {us : Nat} {kind : ReadKind} (c : Config) (h : s.pos = .delay us kind) :
    finish c s = finish c { sleep us s with pos := .read kind } := by
  have hr : ({ sleep us s with pos := .read kind } : State).pos = .read kind := rfl
  rw [finish_read c hr]
  simp only [finish, microStep_delay c h, microStep_read c hr]
  rw [microStep_answer c (prepare_pos _)]
  simp

theorem sendCommand_respond (c : Config) (w : Word) (s : State) :
    sendCommand c w .respond s = prepare ((commandOnly c w s).1, (commandOnly c w s).2) := rfl

theorem sendCommand_read_ok {c : Config} {s : State} (w : Word) (us : Nat) (kind : ReadKind)
    (h : s.engine.writeStatus = c.stOk) :
    sendCommand c w (.read us kind) s = { (writeCmd c w s).2 with pos := .delay us kind } := by
  simp [sendCommand, afterCommand, h]

theorem sendCommand_read_fail {c : Config} {s : State} (w : Word) (us : Nat) (kind : ReadKind)
    (h : s.engine.writeStatus ≠ c.stOk) :
    sendCommand c w (.read us kind) s
      = prepare (readResponse c kind (.error s.engine.writeStatus) (writeCmd c w s).2) := by
  simp [sendCommand, afterCommand, h]

/-- After the command was sent at most three micro-steps are left. -/
theorem finish_command {s : State} {w : Word} {after : AfterCommand} (c : Config) (h : s.pos = .command w after) :
    finish c s = finish c (sendCommand c w after s) := by
  cases after with
  | respond =>
    rw [sendCommand_respond, finish_answer c (prepare_pos _)]
    simp only [finish, microStep_command c h, sendCommand_respond]
    rw [microStep_answer c (prepare_pos _)]
    simp
  | read us kind =>
    by_cases hw : s.engine.writeStatus = c.stOk
    · rw [sendCommand_read_ok w us kind hw]
      have hd : ({ (writeCmd c w s).2 with pos := .delay us kind } : State).pos = .delay us kind := rfl
      have hr : ({ sleep us { (writeCmd c w s).2 with pos := .delay us kind } with pos := .read kind } : State).pos
          = .read kind := rfl
      rw [finish_delay c hd, finish_read c hr]
      simp only [finish, microStep_command c h, sendCommand_read_ok w us kind hw, microStep_delay c hd,
        microStep_read c hr]
      rw [microStep_answer c (prepare_pos _)]
    · rw [sendCommand_read_fail w us kind hw, finish_answer c (prepare_pos _)]
      simp only [finish, microStep_command c h, sendCommand_read_fail w us kind hw]
      rw [microStep_answer c (prepare_pos _)]
      simp only [microStep_give]

end Sys2Proof.Machine
end

