-- ==== Sys2Proof/Laws/PerInstr.lean ====
section
/-! SUPPORT. Per instruction: the encoder's word lies in the instruction's row of opcode_table.json, under the row's own
mask and match, and the row's format is the instruction's. -/

namespace Sys2Proof.Laws

open Sys2Proof.Machine

/-- A row of opcode_table.json. -/
structure Row where
  format : Format
  mask : Word
  value : Word
  deriving DecidableEq, Repr

/-- opcode_table.json, by instruction: "format", "mask" and "match". -/
def rowOf : Instr → Row
  | .probe => { format := .req, mask := 0xFF00#16, value := 0x0000#16 }
  | .setRep _ => { format := .req, mask := 0xFF00#16, value := 0x0100#16 }
  | .startMeas => { format := .req, mask := 0xFF00#16, value := 0x0200#16 }
  | .readMeas => { format := .req, mask := 0xFF00#16, value := 0x0300#16 }
  | .measBlocking => { format := .req, mask := 0xFF00#16, value := 0x0400#16 }
  | .heaterOn => { format := .req, mask := 0xFF00#16, value := 0x0500#16 }
  | .heaterOff => { format := .req, mask := 0xFF00#16, value := 0x0600#16 }
  | .readSerial => { format := .req, mask := 0xFF00#16, value := 0x0700#16 }
  | .getVersion => { format := .req, mask := 0xFF00#16, value := 0x0800#16 }
  | .getAddr => { format := .req, mask := 0xFF00#16, value := 0x0900#16 }
  | .cmdMeasHigh => { format := .cmd, mask := 0xFFFF#16, value := 0x2400#16 }
  | .cmdMeasMedium => { format := .cmd, mask := 0xFFFF#16, value := 0x240B#16 }
  | .cmdMeasLow => { format := .cmd, mask := 0xFFFF#16, value := 0x2416#16 }
  | .cmdMeasHighCs => { format := .cmd, mask := 0xFFFF#16, value := 0x2C06#16 }
  | .cmdMeasMediumCs => { format := .cmd, mask := 0xFFFF#16, value := 0x2C0D#16 }
  | .cmdMeasLowCs => { format := .cmd, mask := 0xFFFF#16, value := 0x2C10#16 }
  | .cmdReadStatus => { format := .cmd, mask := 0xFFFF#16, value := 0xF32D#16 }
  | .cmdReadSerial => { format := .cmd, mask := 0xFFFF#16, value := 0x3780#16 }
  | .cmdHeaterOn => { format := .cmd, mask := 0xFFFF#16, value := 0x306D#16 }
  | .cmdHeaterOff => { format := .cmd, mask := 0xFFFF#16, value := 0x3066#16 }

/-- The instruction's word matches its row, and its format is the row's. -/
def EncodesInRow.Statement (i : Instr) : Prop :=
  encode i &&& (rowOf i).mask = (rowOf i).value ∧ i.format = (rowOf i).format

theorem EncodesInRow.probe : EncodesInRow.Statement .probe := ⟨by decide, rfl⟩
theorem EncodesInRow.setRep (arg : Byte) : EncodesInRow.Statement (.setRep arg) := by
  refine ⟨?_, rfl⟩
  revert arg
  decide
theorem EncodesInRow.startMeas : EncodesInRow.Statement .startMeas := ⟨by decide, rfl⟩
theorem EncodesInRow.readMeas : EncodesInRow.Statement .readMeas := ⟨by decide, rfl⟩
theorem EncodesInRow.measBlocking : EncodesInRow.Statement .measBlocking := ⟨by decide, rfl⟩
theorem EncodesInRow.heaterOn : EncodesInRow.Statement .heaterOn := ⟨by decide, rfl⟩
theorem EncodesInRow.heaterOff : EncodesInRow.Statement .heaterOff := ⟨by decide, rfl⟩
theorem EncodesInRow.readSerial : EncodesInRow.Statement .readSerial := ⟨by decide, rfl⟩
theorem EncodesInRow.getVersion : EncodesInRow.Statement .getVersion := ⟨by decide, rfl⟩
theorem EncodesInRow.getAddr : EncodesInRow.Statement .getAddr := ⟨by decide, rfl⟩
theorem EncodesInRow.cmdMeasHigh : EncodesInRow.Statement .cmdMeasHigh := ⟨by decide, rfl⟩
theorem EncodesInRow.cmdMeasMedium : EncodesInRow.Statement .cmdMeasMedium := ⟨by decide, rfl⟩
theorem EncodesInRow.cmdMeasLow : EncodesInRow.Statement .cmdMeasLow := ⟨by decide, rfl⟩
theorem EncodesInRow.cmdMeasHighCs : EncodesInRow.Statement .cmdMeasHighCs := ⟨by decide, rfl⟩
theorem EncodesInRow.cmdMeasMediumCs : EncodesInRow.Statement .cmdMeasMediumCs := ⟨by decide, rfl⟩
theorem EncodesInRow.cmdMeasLowCs : EncodesInRow.Statement .cmdMeasLowCs := ⟨by decide, rfl⟩
theorem EncodesInRow.cmdReadStatus : EncodesInRow.Statement .cmdReadStatus := ⟨by decide, rfl⟩
theorem EncodesInRow.cmdReadSerial : EncodesInRow.Statement .cmdReadSerial := ⟨by decide, rfl⟩
theorem EncodesInRow.cmdHeaterOn : EncodesInRow.Statement .cmdHeaterOn := ⟨by decide, rfl⟩
theorem EncodesInRow.cmdHeaterOff : EncodesInRow.Statement .cmdHeaterOff := ⟨by decide, rfl⟩

end Sys2Proof.Laws
end

