-- ==== Sys2Proof/Tests/Slice0.lean ====
section
/-! SUPPORT. Small tests: what the checks refuse, the encodings word by word, one or two vectors of 95_test_vectors.md an
instruction, and for every obligation with hypotheses a state and operands that meet them. Expected values come from the
tables of spec/ named at each group. -/

namespace Sys2Proof.Tests

open Sys2Proof Sys2Proof.Machine

/-! ### States to test on -/

/-- An idle block in a given mode, with the engine's answers to its writes and reads. -/
def idleWith (m : RepMode) (ws : List Status) (rs : List ReadAnswer) : State :=
  { State.reset with repMode := m, engine := { writeAnswers := ws, readAnswers := rs, writes := 0, reads := 0 } }

/-- The same block at a position inside an operation. -/
def busyAt (p : Pos) (ws : List Status) (rs : List ReadAnswer) : State := { idleWith .high ws rs with pos := p }

/-- The responses after a meaning has run on a state that had given none. -/
def responsesOf (o : Host.Outcome State Fault Refusal) : Option (List Response) :=
  match o with
  | .next s => some s.responses
  | .fault _ => none
  | .refused _ => none

/-- The trace after a meaning has run on a state whose trace was empty. -/
def traceOf (o : Host.Outcome State Fault Refusal) : Option (List Event) :=
  match o with
  | .next s => some s.trace
  | .fault _ => none
  | .refused _ => none

/-- REP_MODE after a meaning has run. -/
def modeOf (o : Host.Outcome State Fault Refusal) : Option RepMode :=
  match o with
  | .next s => some s.repMode
  | .fault _ => none
  | .refused _ => none

/-! ### The checks refuse ill-formed terms -/

theorem test_request_check_refuses_command_word : Instr.wellFormed .req .cmdMeasHigh = false := by decide

theorem test_command_check_refuses_request : Instr.wellFormed .cmd .probe = false := by decide

theorem test_config_check_refuses_equal_statuses :
    Config.wellFormed { built with stCrcFail := built.stOk } = false := by decide

theorem test_config_check_accepts_defaults : built.wellFormed = true := by decide

/-! ### Every row's word, from opcode_table.json -/

theorem test_decode_probe : decodeReq 0b0000000000000000#16 = .ok .probe := rfl
theorem test_decode_setRep : decodeReq 0b0000000110100101#16 = .ok (.setRep 0b10100101#8) := rfl
theorem test_decode_startMeas : decodeReq 0b0000001000000000#16 = .ok .startMeas := rfl
theorem test_decode_readMeas : decodeReq 0b0000001100000000#16 = .ok .readMeas := rfl
theorem test_decode_measBlocking : decodeReq 0b0000010000000000#16 = .ok .measBlocking := rfl
theorem test_decode_heaterOn : decodeReq 0b0000010100000000#16 = .ok .heaterOn := rfl
theorem test_decode_heaterOff : decodeReq 0b0000011000000000#16 = .ok .heaterOff := rfl
theorem test_decode_readSerial : decodeReq 0b0000011100000000#16 = .ok .readSerial := rfl
theorem test_decode_getVersion : decodeReq 0b0000100000000000#16 = .ok .getVersion := rfl
theorem test_decode_getAddr : decodeReq 0b0000100111111111#16 = .ok .getAddr := rfl
theorem test_decode_cmdMeasHigh : decodeCmd 0b0010010000000000#16 = .ok .cmdMeasHigh := rfl
theorem test_decode_cmdMeasMedium : decodeCmd 0b0010010000001011#16 = .ok .cmdMeasMedium := rfl
theorem test_decode_cmdMeasLow : decodeCmd 0b0010010000010110#16 = .ok .cmdMeasLow := rfl
theorem test_decode_cmdMeasHighCs : decodeCmd 0b0010110000000110#16 = .ok .cmdMeasHighCs := rfl
theorem test_decode_cmdMeasMediumCs : decodeCmd 0b0010110000001101#16 = .ok .cmdMeasMediumCs := rfl
theorem test_decode_cmdMeasLowCs : decodeCmd 0b0010110000010000#16 = .ok .cmdMeasLowCs := rfl
theorem test_decode_cmdReadStatus : decodeCmd 0b1111001100101101#16 = .ok .cmdReadStatus := rfl
theorem test_decode_cmdReadSerial : decodeCmd 0b0011011110000000#16 = .ok .cmdReadSerial := rfl
theorem test_decode_cmdHeaterOn : decodeCmd 0b0011000001101101#16 = .ok .cmdHeaterOn := rfl
theorem test_decode_cmdHeaterOff : decodeCmd 0b0011000001100110#16 = .ok .cmdHeaterOff := rfl

/-- 95_test_vectors.md section 4: 0x0A00 is reserved, 0x2400 is no request, and no third word is a command. -/
theorem test_decode_rejects_by_name :
    decodeReq 0x0A00#16 = .error (.reservedOpsel 0x0A#8) ∧ decodeReq 0x2400#16 = .error (.reservedOpsel 0x24#8) ∧
    decodeCmd 0x0000#16 = .error (.unknownCommand 0#16) ∧ decodeFrame [0x24#8] = .error (.badFrameLength 1) := by
  refine ⟨rfl, rfl, rfl, rfl⟩

/-! ### CRC-8, TCONV and operand vectors: 95_test_vectors.md sections 2.1, 2.2, 2.4 -/

theorem test_crc8_vectors :
    crc8Default [0xBE#8, 0xEF#8] = 0x92#8 ∧ crc8Default [0#8, 0#8] = 0x81#8 ∧ crc8Default [0xFF#8, 0xFF#8] = 0xAC#8 ∧
    crc8Default [0x12#8, 0x34#8] = 0x37#8 ∧ crc8Default [0x83#8, 0xA9#8] = 0xFB#8 := by decide +kernel

theorem test_tconv_extremes : (tConv 0x0000#16).toInt = -45000 ∧ (tConv 0xFFFF#16).toInt = 129997 := by decide

theorem test_tconv_unsigned_and_truncating :
    (tConv 0x8000#16).toInt = 42500 ∧ (tConv 0x0001#16).toInt = -44998 ∧ (tConv 0x6666#16).toInt = 24998 ∧
    (tConv 0x41D4#16).toInt = -1 ∧ (tConv 0x41D5#16).toInt = 2 := by decide

theorem test_decodeRep_vectors :
    decodeRep 0#8 = .high ∧ decodeRep 1#8 = .medium ∧ decodeRep 2#8 = .low ∧ decodeRep 3#8 = .high ∧
    decodeRep 99#8 = .high ∧ decodeRep 255#8 = .high := by decide

/-- 10_state.md R11: the pattern 3 is never stored. -/
theorem test_repMode_bits : repModeBits .high = 0#2 ∧ repModeBits .medium = 1#2 ∧ repModeBits .low = 2#2 := by decide

/-! ### The operations: 95_test_vectors.md section 2.6, default parameters -/

theorem test_probe_ok :
    traceOf (exec .probe (idleWith .high [0#16] [{ status := 0#16, bytes := [0x80#8, 0x10#8, 0xE1#8] }]))
      = some [.write 0x4A#7 [0xF3#8, 0x2D#8] 0#16, .sleep 1000, .read 0x4A#7 3 0#16 [0x80#8, 0x10#8, 0xE1#8]] := by
  decide +kernel

theorem test_probe_crc_fail :
    responsesOf (exec .probe (idleWith .high [0#16] [{ status := 0#16, bytes := [0x80#8, 0x10#8, 0xE0#8] }]))
      = some [{ status := -2, data := .none }] := by decide +kernel

theorem test_setRep_fallback : modeOf (exec (.setRep 99#8) (idleWith .low [] [])) = some .high := by decide

theorem test_setRep_medium : modeOf (exec (.setRep 1#8) (idleWith .high [] [])) = some .medium := by decide

theorem test_startMeas_low :
    traceOf (exec .startMeas (idleWith .low [6#16] [])) = some [.write 0x4A#7 [0x24#8, 0x16#8] 6#16] := by decide

theorem test_startMeas_status :
    responsesOf (exec .startMeas (idleWith .low [6#16] [])) = some [{ status := 6#16, data := .none }] := by decide

theorem test_readMeas_ok :
    responsesOf (exec .readMeas (idleWith .high [] [{ status := 0#16, bytes := [0x66#8, 0x66#8, 0x93#8] }]))
      = some [{ status := 0#16, data := .temp 24998#32 }] := by decide +kernel

theorem test_readMeas_transport_status :
    (responsesOf (exec .readMeas (idleWith .high [] [{ status := 5#16, bytes := [] }]))).map (List.map Response.status)
      = some [5#16] := by rfl

theorem test_measBlocking_ok :
    responsesOf (exec .measBlocking (idleWith .high [0#16] [{ status := 0#16, bytes := [0x6A#8, 0x3C#8, 0x82#8] }]))
      = some [{ status := 0#16, data := .temp 27621#32 }] := by decide +kernel

theorem test_measBlocking_short_circuit :
    traceOf (exec .measBlocking (idleWith .medium [3#16] [])) = some [.write 0x4A#7 [0x24#8, 0x0B#8] 3#16] := by decide

theorem test_heaterOn : traceOf (exec .heaterOn (idleWith .high [0#16] []))
    = some [.write 0x4A#7 [0x30#8, 0x6D#8] 0#16] := by decide

/-- Program P4, step 5: a transport code equal to BAD_DATA is passed through. -/
theorem test_heaterOff : responsesOf (exec .heaterOff (idleWith .high [-1] []))
    = some [{ status := -1, data := .none }] := by decide

theorem test_readSerial_ok :
    responsesOf (exec .readSerial (idleWith .high [0#16]
        [{ status := 0#16, bytes := [0x12#8, 0x34#8, 0x37#8, 0x56#8, 0x78#8, 0x7D#8] }]))
      = some [{ status := 0#16, data := .serial 0x12345678#32 }] := by decide +kernel

theorem test_readSerial_second_word_bad :
    (responsesOf (exec .readSerial (idleWith .high [0#16]
        [{ status := 0#16, bytes := [0x12#8, 0x34#8, 0x37#8, 0x56#8, 0x78#8, 0x7C#8] }]))).map (List.map Response.status)
      = some [-2] := by decide +kernel

theorem test_getVersion : responsesOf (exec .getVersion (idleWith .high [] []))
    = some [{ status := 0#16, data := .version Config.freeVersion }] := by rfl

theorem test_getAddr : responsesOf (exec .getAddr (idleWith .high [] []))
    = some [{ status := 0#16, data := .addr 0x4A#8 }] := by decide

/-! ### The command words, reserved words, reset, BUSY -/

theorem test_command_word_ends_operation :
    traceOf (step (busyAt (.command 0x306D#16 .respond) [1#16] [])) = some [.write 0x4A#7 [0x30#8, 0x6D#8] 1#16] := by
  decide

theorem test_command_word_goes_on :
    responsesOf (step (busyAt (.command 0xF32D#16 (.read 1000 .status)) [0#16]
        [{ status := 0#16, bytes := [0x80#8, 0x10#8, 0xE1#8] }]))
      = some [{ status := 0#16, data := .none }] := by decide +kernel

/-- Section 4: a reserved request is refused, and so is a command code on the host port. -/
theorem test_step_refuses_reserved :
    step { State.reset with host := [.request 0x0A00#16] } = .refused (.reservedRequest 0x0A00#16) ∧
    step { State.reset with host := [.request 0x2400#16] } = .refused (.reservedRequest 0x2400#16) := by
  exact ⟨rfl, rfl⟩

/-- Section 2.7: reset from Low gives High and no event. -/
theorem test_reset_from_low :
    modeOf (step { idleWith .low [] [] with host := [.reset] }) = some .high ∧
    traceOf (step { idleWith .low [] [] with host := [.reset] }) = some [] := by decide

/-- Section 4: a reset between the write and the read of MEAS_BLOCKING is refused. -/
theorem test_reset_while_busy :
    step { busyAt (.delay 15000 .temp) [] [] with host := [.reset] } = .refused .resetWhileBusy := rfl

/-- Just after reset, with no answer listed, a placed request and a placed command word both run. -/
theorem test_placed_words_run :
    (∃ t, step (State.reset.withFetchWord 16 0x0000) = .next t) ∧
    (∃ t, step (State.reset.withFetchWord 16 0x0163) = .next t) ∧
    (∃ t, step (State.reset.withFetchWord 16 0xF32D) = .next t) ∧
    (∃ t, step (State.reset.withFetchWord 16 0x2C10) = .next t) :=
  ⟨⟨_, rfl⟩, ⟨_, rfl⟩, ⟨_, rfl⟩, ⟨_, rfl⟩⟩

/-! ### Witnesses: for every obligation with hypotheses, a state and operands that meet them -/

/-- A good one-word frame and a good two-word frame of section 2.4, and the same with a bad CRC byte. -/
def goodOne : ReadAnswer := { status := 0#16, bytes := [0xBE#8, 0xEF#8, 0x92#8] }
def badOne : ReadAnswer := { status := 0#16, bytes := [0xBE#8, 0xEF#8, 0x93#8] }
def goodTwo : ReadAnswer := { status := 0#16, bytes := [0x12#8, 0x34#8, 0x37#8, 0x56#8, 0x78#8, 0x7D#8] }
def badTwo : ReadAnswer := { status := 0#16, bytes := [0x12#8, 0x34#8, 0x37#8, 0x56#8, 0x78#8, 0x7C#8] }
def failedRead : ReadAnswer := { status := 5#16, bytes := [] }

/-- ResetStartsHighAndIdle. -/
theorem witness_reset_idle :
    ({ idleWith .low [] [] with host := [.reset] } : State).busy = false ∧
    ({ idleWith .low [] [] with host := [.reset] } : State).host = .reset :: [] := by decide

/-- ResetWhileBusyRefused. -/
theorem witness_reset_busy :
    ({ busyAt (.read .temp) [] [] with host := [.reset] } : State).busy = true ∧
    ({ busyAt (.read .temp) [] [] with host := [.reset] } : State).host = .reset :: [] := by decide

/-- ReservedRequestRefused, both clauses at their boundaries. -/
theorem witness_reserved_request :
    ({ State.reset with host := [.request 0x0A00#16] } : State).busy = false ∧ 0x0A00 ≤ (0x0A00#16).toNat ∧
    0x0A00 ≤ (0xFFFF#16).toNat ∧ (0x09FF#16).toNat < 0x0A00 ∧ (0x0000#16).toNat < 0x0A00 := by decide

/-- BusyHoldsTheHost: an idle block and a request; a busy block whose host waits with a request. -/
theorem witness_busy_holds :
    Instr.wellFormed .req .getAddr = true ∧ State.reset.busy = false ∧
    ({ busyAt (.read .temp) [] [] with host := [.request 0x0900#16] } : State).busy = true ∧
    ({ busyAt (.read .temp) [] [] with host := [.request 0x0900#16] } : State).host.head? ≠ some .reset := by decide

/-- OneRequestOneResponse, StepRunsDecodedRequest. -/
theorem witness_request :
    ({ State.reset with host := [.request 0x0101#16] } : State).busy = false ∧
    decodeReq 0x0101#16 = .ok (.setRep 1#8) := by
  exact ⟨rfl, rfl⟩

/-- StepRunsDecodedCommand, CommandWordResult: nothing follows; a read follows a good and a failed write. -/
theorem witness_command :
    (busyAt (.command 0x3066#16 .respond) [0#16] []).pos = .command 0x3066#16 .respond ∧
    (busyAt (.command 0x3066#16 .respond) [0#16] []).host.head? ≠ some .reset ∧
    decodeCmd 0x3066#16 = .ok .cmdHeaterOff ∧
    (busyAt (.command 0x2400#16 (.read 15000 .temp)) [0#16] []).engine.writeStatus = built.stOk ∧
    (busyAt (.command 0x2400#16 (.read 15000 .temp)) [1#16] []).engine.writeStatus ≠ built.stOk := by
  refine ⟨rfl, by decide, rfl, by decide, by decide⟩

/-- MeaningStopsOnlyHere, StepStopsOnlyHere: each case occurs. -/
theorem witness_stops :
    exec .probe (busyAt (.read .temp) [] []) = .refused .requestWhileBusy ∧
    exec .cmdHeaterOn State.reset = .refused .commandOutsideOperation ∧
    (∃ t, exec .getAddr State.reset = .next t) ∧ (∃ t, step State.reset = .next t) :=
  ⟨rfl, rfl, ⟨_, rfl⟩, ⟨_, rfl⟩⟩

/-- NextRequestAcceptedAfterAny, SequencerRefinesOperation, StatusComesFromHere. -/
theorem witness_requests_at_idle :
    Instr.wellFormed .req .measBlocking = true ∧ Instr.wellFormed .req (.setRep 255#8) = true ∧
    State.reset.busy = false := by decide

/-- DecodeInvertsEncode, in both formats, ARG at both ends. -/
theorem witness_well_formed :
    Instr.wellFormed .req (.setRep 0#8) = true ∧ Instr.wellFormed .req (.setRep 255#8) = true ∧
    Instr.wellFormed .cmd .cmdMeasLowCs = true := by decide

/-- EncodeInvertsDecode, FormatsAreDisjoint. -/
theorem witness_decoded : decodeReq 0x01FF#16 = .ok (.setRep 255#8) ∧ decodeCmd 0xF32D#16 = .ok .cmdReadStatus :=
  ⟨rfl, rfl⟩

/-- OpselSelectsOperation: a word for each OPSEL, ARG at both ends, and the reserved ones at both ends. -/
theorem witness_opsel :
    (0x00FF#16).toNat / 256 = 0x00 ∧ (0x01FF#16).toNat / 256 = 0x01 ∧ (0x0200#16).toNat / 256 = 0x02 ∧
    (0x03FF#16).toNat / 256 = 0x03 ∧ (0x0400#16).toNat / 256 = 0x04 ∧ (0x05FF#16).toNat / 256 = 0x05 ∧
    (0x0600#16).toNat / 256 = 0x06 ∧ (0x07FF#16).toNat / 256 = 0x07 ∧ (0x0800#16).toNat / 256 = 0x08 ∧
    (0x09FF#16).toNat / 256 = 0x09 ∧ 0x0A ≤ (0x0A00#16).toNat / 256 ∧ 0x0A ≤ (0xFFFF#16).toNat / 256 := by decide

/-- ArgIgnoredButBySetRep. -/
theorem witness_arg_ignored :
    (0x0900#16).toNat / 256 = (0x09FF#16).toNat / 256 ∧ (0x0900#16).toNat / 256 ≠ 1 ∧
    (0x0900#16).toNat / 256 < 0x0A ∧ State.reset.busy = false := by decide

/-- SetRepResult, StartMeasResult, HeaterResult, ConstantsResult: an idle block in each mode. -/
theorem witness_idle_modes :
    (idleWith .high [] []).busy = false ∧ (idleWith .medium [] []).busy = false ∧ (idleWith .low [] []).busy = false ∧
    (1#8).toNat = 1 ∧ (2#8).toNat = 2 ∧ (3#8).toNat ≠ 1 ∧ (3#8).toNat ≠ 2 := by decide

/-- ReadMeasResult, ReadWordsResult with one word: its three clauses. -/
theorem witness_read_one :
    (idleWith .high [] [goodOne]).busy = false ∧ (idleWith .high [] [goodOne]).engine.readStatus = built.stOk ∧
    built.crc8 [(idleWith .high [] [goodOne]).engine.readByte 0, (idleWith .high [] [goodOne]).engine.readByte 1]
      = (idleWith .high [] [goodOne]).engine.readByte 2 ∧
    (idleWith .high [] [badOne]).engine.readStatus = built.stOk ∧
    built.crc8 [(idleWith .high [] [badOne]).engine.readByte 0, (idleWith .high [] [badOne]).engine.readByte 1]
      ≠ (idleWith .high [] [badOne]).engine.readByte 2 ∧
    (idleWith .high [] [failedRead]).engine.readStatus ≠ built.stOk := by decide +kernel

/-- ProbeResult, MeasBlockingResult: a good and a failed write before the clauses of the read. -/
theorem witness_write_then_read :
    (idleWith .low [0#16] [goodOne]).busy = false ∧ (idleWith .low [0#16] [goodOne]).engine.writeStatus = built.stOk ∧
    (idleWith .low [0#16] [goodOne]).engine.readStatus = built.stOk ∧
    (idleWith .low [0#16] [failedRead]).engine.readStatus ≠ built.stOk ∧
    (idleWith .low [-2] [goodOne]).engine.writeStatus ≠ built.stOk := by decide

/-- ReadSerialResult, ReadWordsResult with two words: the clauses on the two CRC bytes. -/
theorem witness_read_two :
    (idleWith .high [0#16] [goodTwo]).engine.readStatus = built.stOk ∧
    frameCrcOk built .two (idleWith .high [0#16] [goodTwo]).engine.readByte = true ∧
    (idleWith .high [0#16] [badTwo]).engine.readStatus = built.stOk ∧
    built.crc8 [(idleWith .high [0#16] [badTwo]).engine.readByte 3, (idleWith .high [0#16] [badTwo]).engine.readByte 4]
      ≠ (idleWith .high [0#16] [badTwo]).engine.readByte 5 := by decide +kernel

/-- HeaterResult, OperationsSendTheirRow: the premises on the instruction. -/
theorem witness_instructions :
    ((Instr.heaterOn = .heaterOn ∧ built.cmdHeaterOn = built.cmdHeaterOn) ∧
      (Instr.heaterOff = .heaterOff ∧ built.cmdHeaterOff = built.cmdHeaterOff)) ∧
    (Instr.measBlocking = .startMeas ∨ Instr.measBlocking = .measBlocking) := by decide

/-- FlippedCrcByteFails: two frames that differ in the second word's CRC byte alone, the first accepted. -/
theorem witness_flipped_crc :
    1 < WordCount.two.words ∧
    (∃ words, (readWords built .two (idleWith .high [] [goodTwo])).1 = .ok words) ∧
    (idleWith .high [] [badTwo]).engine.readStatus = built.stOk ∧
    (∀ j, j ≠ 3 * 1 + 2 →
      (idleWith .high [] [badTwo]).engine.readByte j = (idleWith .high [] [goodTwo]).engine.readByte j) ∧
    (idleWith .high [] [badTwo]).engine.readByte (3 * 1 + 2)
      ≠ (idleWith .high [] [goodTwo]).engine.readByte (3 * 1 + 2) := by
  refine ⟨by decide, ⟨_, readWords_good (by decide) (by decide +kernel)⟩, by decide, fun j hj => ?_, by decide⟩
  match j, hj with
  | 0, _ => rfl
  | 1, _ => rfl
  | 2, _ => rfl
  | 3, _ => rfl
  | 4, _ => rfl
  | 5, h => exact absurd rfl h
  | _ + 6, _ => rfl

/-- StatusOkIff. -/
theorem witness_config : built.wellFormed = true := built_wellFormed

/-- NoIoOperationsTouchNoPort: an idle and a busy block. -/
theorem witness_no_io :
    ((∃ arg, Instr.setRep 1#8 = .setRep arg) ∨ Instr.setRep 1#8 = .getVersion ∨ Instr.setRep 1#8 = .getAddr) ∧
    State.reset.busy = false ∧ (busyAt (.read .status) [] []).busy = true :=
  ⟨.inl ⟨_, rfl⟩, rfl, rfl⟩

/-- ConverterProperties, ConverterFitsEighteenBits: the clauses at their boundaries. -/
theorem witness_converter :
    (0#16).toNat < (65535#16).toNat ∧ (65534#16).toNat < 65535 ∧ (18725 ≤ (18725#16).toNat ∧ (33704#16).toNat ≤ 33704) ∧
    18 ≤ 18 ∧ 31 < 32 := by decide

/-- OnlySetRepAndResetWriteRepMode: a reset and a SET_REP that change the mode. -/
theorem witness_mode_changes :
    (∃ t, step { idleWith .low [] [] with host := [.reset] } = .next t ∧ t.repMode ≠ .low) ∧
    (∃ t, step { idleWith .low [] [] with host := [.request 0x0101#16] } = .next t ∧ t.repMode ≠ .low) :=
  ⟨⟨_, rfl, by decide⟩, ⟨_, rfl, by decide⟩⟩

/-- OnlyMeasurementsReadRepMode. -/
theorem witness_not_a_measurement :
    Instr.wellFormed .req .readSerial = true ∧ Instr.readSerial ≠ .startMeas ∧ Instr.readSerial ≠ .measBlocking ∧
    State.reset.busy = false := by decide

/-- StepKeepsBusLegal, StepKeepsSleepsAfterWrites: a state before a delay that meets both, and its step. -/
def beforeDelay : State :=
  { busyAt (.delay 15000 .temp) [] [] with trace := [.write 0x4A#7 [0x24#8, 0x00#8] 0#16] }

theorem witness_invariants :
    beforeDelay.BusLegal ∧ beforeDelay.SleepsFollowWrites ∧ ∃ t, step beforeDelay = .next t := by
  refine ⟨⟨?_, .inr (.inl rfl)⟩, ⟨?_, ?_⟩, ⟨_, rfl⟩⟩
  · intro e he
    obtain rfl : e = .write 0x4A#7 [0x24#8, 0x00#8] 0#16 := by simpa [beforeDelay] using he
    exact ⟨rfl, _, .inl rfl, rfl⟩
  · intro before us after h
    match before, h with
    | [], h => simp [beforeDelay] at h
    | _ :: [], h => simp [beforeDelay] at h
    | _ :: _ :: _, h => simp [beforeDelay] at h
  · intro us kind _
    exact ⟨[], 0x4A#7, [0x24#8, 0x00#8], rfl⟩

end Sys2Proof.Tests
end

section
/-! SUPPORT. The step as the sequencer sees it. `Machine/Sequencer.lean` describes the ten operations a second time, one
transaction a micro-step; here every outcome of `exec` and of `step` is written as that run (`exec_request`,
`step_busy`, `step_request`), so that a fact about the whole machine is a fact about `accept` and `finish`. -/

namespace Sys2Proof.Machine

/-! ### The two formats -/

theorem wellFormed_req_or_cmd (i : Instr) : i.wellFormed .req = true ∨ i.wellFormed .cmd = true := by
  simp only [Instr.wellFormed, decide_eq_true_eq]
  cases i.format
  · exact .inl rfl
  · exact .inr rfl

/-- R34: OPSEL selects operations alone. -/
theorem wellFormed_of_operationOf {opsel arg : Byte} {i : Instr} (h : operationOf opsel arg = some i) :
    i.wellFormed .req = true := by
  unfold operationOf at h
  split at h
  case h_11 => cases h
  all_goals
    obtain rfl := Option.some.inj h
    rfl

theorem wellFormed_of_decodeReq {w : Word} {i : Instr} (h : decodeReq w = .ok i) : i.wellFormed .req = true := by
  unfold decodeReq at h
  split at h
  case h_1 j hj =>
    obtain rfl := Except.ok.inj h
    exact wellFormed_of_operationOf hj
  case h_2 => cases h

/-- R40: every row of the command table is a command word beside its own code. -/
theorem wellFormed_encode_of_mem_commandTable :
    ∀ row ∈ commandTable, row.2.wellFormed .cmd = true ∧ encode row.2 = row.1 := by
  decide

theorem wellFormed_encode_of_decodeCmd {w : Word} {i : Instr} (h : decodeCmd w = .ok i) :
    i.wellFormed .cmd = true ∧ encode i = w := by
  unfold decodeCmd at h
  split at h
  case h_1 j hj =>
    obtain rfl := Except.ok.inj h
    obtain ⟨before, rest, htable, -⟩ := List.lookup_eq_some_iff.mp hj
    exact wellFormed_encode_of_mem_commandTable (w, j) (by simp [htable])
  case h_2 => cases h

/-! ### A busy block runs to its one response -/

/-- What is left of the running operation ends in giving one response, and nothing on the way writes REP_MODE, takes
from the host or responds. -/
def RunsToResponse (c : Config) (s : State) : Prop :=
  ∃ p : Response × State, finish c s = give p ∧ p.2.repMode = s.repMode ∧ p.2.host = s.host ∧
    p.2.responses = s.responses

theorem RunsToResponse.of_finish_eq {c : Config} {s t : State} (ht : RunsToResponse c t)
    (hfinish : finish c s = finish c t) (hmode : t.repMode = s.repMode) (hhost : t.host = s.host)
    (hresp : t.responses = s.responses) : RunsToResponse c s := by
  obtain ⟨p, hp, hpmode, hphost, hpresp⟩ := ht
  exact ⟨p, hfinish.trans hp, hpmode.trans hmode, hphost.trans hhost, hpresp.trans hresp⟩

theorem runsToResponse_answer {s : State} {r : Response} (c : Config) (h : s.pos = .answer r) : RunsToResponse c s :=
  ⟨(r, s), finish_answer c h, rfl, rfl, rfl⟩

theorem runsToResponse_read {s : State} {kind : ReadKind} (c : Config) (h : s.pos = .read kind) :
    RunsToResponse c s :=
  ⟨_, finish_read c h, by simp [readWords_state], by simp [readWords_state], by simp [readWords_state]⟩

theorem runsToResponse_delay {s : State} {us : Nat} {kind : ReadKind} (c : Config) (h : s.pos = .delay us kind) :
    RunsToResponse c s :=
  (runsToResponse_read c rfl).of_finish_eq (finish_delay c h) rfl rfl rfl

theorem runsToResponse_command {s : State} {w : Word} {after : AfterCommand} (c : Config)
    (h : s.pos = .command w after) : RunsToResponse c s := by
  have hsend := finish_command c h
  cases after with
  | respond => exact (runsToResponse_answer c (prepare_pos _)).of_finish_eq hsend rfl rfl rfl
  | read us kind =>
    by_cases hw : s.engine.writeStatus = c.stOk
    · rw [sendCommand_read_ok w us kind hw] at hsend
      exact (runsToResponse_delay c rfl).of_finish_eq hsend rfl rfl rfl
    · rw [sendCommand_read_fail w us kind hw] at hsend
      exact (runsToResponse_answer c (prepare_pos _)).of_finish_eq hsend (by simp) (by simp) (by simp)

theorem runsToResponse_of_busy {s : State} (c : Config) (h : s.busy = true) : RunsToResponse c s := by
  rw [busy_eq_true_iff] at h
  cases hpos : s.pos with
  | idle => exact absurd hpos h
  | command w after => exact runsToResponse_command c hpos
  | delay us kind => exact runsToResponse_delay c hpos
  | read kind => exact runsToResponse_read c hpos
  | answer r => exact runsToResponse_answer c hpos

/-- The rest of an operation writes no REP_MODE, wherever the block stands. -/
@[simp] theorem finish_repMode (c : Config) (s : State) : (finish c s).repMode = s.repMode := by
  cases h : s.busy
  · rw [finish_idle c ((busy_eq_false_iff s).mp h)]
  · obtain ⟨p, hp, hmode, -, -⟩ := runsToResponse_of_busy c h
    rw [hp, give_repMode, hmode]

/-! ### Acceptance -/

theorem accept_busy (c : Config) {i : Instr} (s : State) (h : i.wellFormed .req = true) :
    (accept c i s).busy = true := by
  cases i with
  | probe | setRep | startMeas | readMeas | measBlocking | heaterOn | heaterOff | readSerial | getVersion | getAddr =>
    rfl
  | _ => cases h

/-- R11: acceptance writes REP_MODE for SET_REP alone. -/
theorem accept_repMode (c : Config) (i : Instr) (s : State) :
    (accept c i s).repMode = s.repMode ∨ ∃ arg, i = .setRep arg ∧ (accept c i s).repMode = decodeRep arg := by
  cases i with
  | setRep arg => exact .inr ⟨arg, rfl, rfl⟩
  | _ => exact .inl rfl

/-! ### A meaning is acceptance, then the micro-steps -/

theorem finish_at_read (c : Config) (kind : ReadKind) (s : State) :
    finish c { s with pos := .read kind }
      = give (readResponse c kind (readWords c kind.count s).1 (readWords c kind.count s).2) := by
  rw [finish_read c rfl, readWords_eq, readWords_eq]
  cases kind <;> cases readOutcome c _ s.engine <;> rfl

theorem finish_at_command_respond (c : Config) (w : Word) (s : State) :
    finish c { s with pos := .command w .respond } = give (commandOnly c w s) := by
  rw [finish_command c rfl, sendCommand_respond, finish_answer c rfl]
  rfl

/-- R55: a command that a read follows is DELAYED_READ_CMD, then the response. -/
theorem finish_at_command_read (c : Config) (w : Word) (us : Nat) (kind : ReadKind) (s : State) :
    finish c { s with pos := .command w (.read us kind) }
      = give (readResponse c kind (delayedReadCmd c w us kind.count s).1
          (delayedReadCmd c w us kind.count s).2) := by
  rw [finish_command c rfl]
  by_cases hw : s.engine.writeStatus = c.stOk
  · rw [sendCommand_read_ok (s := { s with pos := .command w (.read us kind) }) w us kind hw,
      finish_delay c rfl, delayedReadCmd_ok w us kind.count hw, ← finish_at_read]
    rfl
  · rw [sendCommand_read_fail (s := { s with pos := .command w (.read us kind) }) w us kind hw,
      finish_answer c rfl, delayedReadCmd_fail w us kind.count hw]
    cases kind <;> rfl

/-- R63: MEAS_BLOCKING is a delayed read of the measurement command. -/
theorem measBlocking_eq (c : Config) (s : State) :
    measBlocking c s = readResponse c .temp
      (delayedReadCmd c (measCmd c s.repMode) c.measDurationUs .one s).1
      (delayedReadCmd c (measCmd c s.repMode) c.measDurationUs .one s).2 := by
  by_cases hw : s.engine.writeStatus = c.stOk
  · rw [delayedReadCmd_ok _ _ _ hw]
    simp [measBlocking, startMeas, hw, readMeas, readResponse]
  · rw [delayedReadCmd_fail _ _ _ hw]
    simp [measBlocking, startMeas, hw, readResponse]

/-- R27: the meaning of an operation at an idle block is accepting it and running the micro-steps to the response. -/
theorem exec_request {i : Instr} {s : State} (hi : i.wellFormed .req = true) (hs : s.busy = false) :
    exec i s = .next (finish built (accept built i s)) := by
  cases i with
  | probe => rw [exec_probe_idle hs, accept, finish_at_command_read]; rfl
  | setRep arg => rw [exec_setRep_idle arg hs, accept, finish_answer _ rfl]; rfl
  | startMeas => rw [exec_startMeas_idle hs, accept, finish_at_command_respond]
  | readMeas => rw [exec_readMeas_idle hs, accept, finish_at_read]; rfl
  | measBlocking => rw [exec_measBlocking_idle hs, accept, finish_at_command_read, measBlocking_eq]; rfl
  | heaterOn => rw [exec_heaterOn_idle hs, accept, finish_at_command_respond]
  | heaterOff => rw [exec_heaterOff_idle hs, accept, finish_at_command_respond]
  | readSerial => rw [exec_readSerial_idle hs, accept, finish_at_command_read]; rfl
  | getVersion => rw [exec_getVersion_idle hs, accept, finish_answer _ rfl]; rfl
  | getAddr => rw [exec_getAddr_idle hs, accept, finish_answer _ rfl]; rfl
  | _ => cases hi

theorem exec_request_busy {i : Instr} {s : State} (hi : i.wellFormed .req = true) (hs : s.busy = true) :
    exec i s = .refused .requestWhileBusy := by
  cases i with
  | probe | setRep | startMeas | readMeas | measBlocking | heaterOn | heaterOff | readSerial | getVersion | getAddr =>
    simp only [exec, execProbe, execSetRep, execStartMeas, execReadMeas, execMeasBlocking, execHeaterOn,
      execHeaterOff, execReadSerial, execGetVersion, execGetAddr, onHostPort_busy _ hs]
  | _ => cases hi

theorem atCommandPhase_refused {s : State} (code : Word) (h : ∀ w after, s.pos ≠ .command w after) :
    atCommandPhase code s = .refused .commandOutsideOperation := by
  unfold atCommandPhase
  split
  case h_1 w after hpos => exact absurd hpos (h w after)
  all_goals rfl

/-- A decoded command word is WRITE_CMD of the word the block stands before. -/
theorem exec_decodedCommand {s : State} {w : Word} {after : AfterCommand} {i : Instr} (hpos : s.pos = .command w after)
    (hi : decodeCmd w = .ok i) : exec i s = .next (sendCommand built w after s) := by
  obtain ⟨hcmd, rfl⟩ := wellFormed_encode_of_decodeCmd hi
  rw [exec_command i s hcmd, atCommandPhase_command _ hpos]

/-! ### What a step does, by where the block stands and what the host gives -/

theorem step_busy_reset {s : State} (hs : s.busy = true) (hhost : s.host.head? = some .reset) :
    step s = .refused .resetWhileBusy := by
  simp [step, stepBlock, hs, hhost]

/-- A busy block with no reset before it runs to its response: a command word is sent as it stands, whether the table
lists it or not. -/
theorem step_busy {s : State} (hs : s.busy = true) (hhost : s.host.head? ≠ some .reset) :
    step s = .next (finish built s) := by
  have hstep : step s = stepBusy s := by simp [step, stepBlock, hs, hhost]
  rw [hstep]
  unfold stepBusy
  split
  case h_1 w after hpos =>
    rw [finish_command built hpos]
    split
    case h_1 i hi => rw [exec_decodedCommand hpos hi]; rfl
    case h_2 => rfl
  all_goals rfl

theorem step_idle {s : State} (hs : s.busy = false) : step s = stepIdle s := by
  simp [step, stepBlock, hs]

theorem step_waiting {s : State} (hs : s.busy = false) (hhost : s.host = []) : step s = .next s := by
  simp [step_idle hs, stepIdle, hhost]

theorem step_reset {s : State} {rest : List HostInput} (hs : s.busy = false) (hhost : s.host = .reset :: rest) :
    step s = .next (resetBlock { s with host := rest }) := by
  simp [step_idle hs, stepIdle, hhost]

theorem step_reserved {s : State} {w : Word} {rest : List HostInput} {e : DecodeError} (hs : s.busy = false)
    (hhost : s.host = .request w :: rest) (he : decodeReq w = .error e) :
    step s = .refused (.reservedRequest w) := by
  simp [step_idle hs, stepIdle, hhost, he]

theorem step_request {s : State} {w : Word} {rest : List HostInput} {i : Instr} (hs : s.busy = false)
    (hhost : s.host = .request w :: rest) (hi : decodeReq w = .ok i) :
    step s = .next (finish built (accept built i { s with host := rest })) := by
  have hexec : exec i { s with host := rest } = .next (finish built (accept built i { s with host := rest })) :=
    exec_request (wellFormed_of_decodeReq hi) hs
  simp [step_idle hs, stepIdle, hhost, hi, hexec]

end Sys2Proof.Machine
end

section
/-! SUPPORT. What no micro-step reads: REP_MODE, the trace and the responses. A state with another REP_MODE and a longer
history is a `reframe` of the first, and every operation commutes with it. -/

namespace Sys2Proof.Machine

/-- The same block with REP_MODE changed by `f`, and with the events `past` and the responses `said` before its own. -/
def State.reframe (f : RepMode → RepMode) (past : List Event) (said : List Response) (s : State) : State :=
  { s with repMode := f s.repMode, trace := past ++ s.trace, responses := said ++ s.responses }

section
variable (f : RepMode → RepMode) (past : List Event) (said : List Response) (c : Config) (s : State)

@[simp] theorem reframe_pos : (s.reframe f past said).pos = s.pos := rfl
@[simp] theorem reframe_engine : (s.reframe f past said).engine = s.engine := rfl
@[simp] theorem reframe_busy : (s.reframe f past said).busy = s.busy := rfl

/-- A state is its own history before the same state without one. -/
theorem reframe_empty_history :
    State.reframe id s.trace s.responses { s with trace := [], responses := [] } = s := by
  simp [State.reframe]

theorem give_reframe (r : Response) :
    give (r, s.reframe f past said) = (give (r, s)).reframe f past said := by
  simp [give, State.reframe]

theorem prepare_reframe (r : Response) :
    prepare (r, s.reframe f past said) = (prepare (r, s)).reframe f past said := rfl

theorem sleep_reframe (us : Nat) : sleep us (s.reframe f past said) = (sleep us s).reframe f past said := by
  simp [sleep, State.reframe]

theorem writeCmd_reframe (w : Word) :
    writeCmd c w (s.reframe f past said) = ((writeCmd c w s).1, (writeCmd c w s).2.reframe f past said) := by
  simp [writeCmd, memWrite, State.reframe]

theorem memRead_reframe (a : DevAddr) (n : Nat) :
    (memRead a n (s.reframe f past said)).2 = (memRead a n s).2.reframe f past said := by
  simp [memRead, State.reframe]

theorem readWords_reframe (count : WordCount) :
    readWords c count (s.reframe f past said)
      = ((readWords c count s).1, (readWords c count s).2.reframe f past said) := by
  rw [readWords_eq, readWords_eq, memRead_reframe, reframe_engine]

theorem readResponse_reframe (kind : ReadKind) (w : WordsOrStatus) :
    readResponse c kind w (s.reframe f past said)
      = ((readResponse c kind w s).1, (readResponse c kind w s).2.reframe f past said) := by
  cases kind <;> cases w <;> rfl

theorem sendCommand_reframe (w : Word) (after : AfterCommand) :
    sendCommand c w after (s.reframe f past said) = (sendCommand c w after s).reframe f past said := by
  cases after with
  | respond => simp only [sendCommand, writeCmd_reframe, afterCommand, prepare_reframe]
  | read us kind =>
    simp only [sendCommand, writeCmd_reframe, afterCommand, readResponse_reframe, prepare_reframe]
    split <;> rfl

theorem microStep_reframe : microStep c (s.reframe f past said) = (microStep c s).reframe f past said := by
  cases hpos : s.pos with
  | idle => rw [microStep_idle c hpos, microStep_idle c ((reframe_pos ..).trans hpos)]
  | command w after =>
    rw [microStep_command c hpos, microStep_command c ((reframe_pos ..).trans hpos), sendCommand_reframe]
  | delay us kind =>
    rw [microStep_delay c hpos, microStep_delay c ((reframe_pos ..).trans hpos), sleep_reframe]
    rfl
  | read kind =>
    rw [microStep_read c hpos, microStep_read c ((reframe_pos ..).trans hpos), readWords_reframe, readResponse_reframe,
      prepare_reframe]
  | answer r => rw [microStep_answer c hpos, microStep_answer c ((reframe_pos ..).trans hpos), give_reframe]

theorem finish_reframe : finish c (s.reframe f past said) = (finish c s).reframe f past said := by
  simp only [finish, microStep_reframe]

/-- Acceptance samples REP_MODE (R61), and reads no history. -/
theorem accept_reframe_history (i : Instr) :
    accept c i (s.reframe id past said) = (accept c i s).reframe id past said := by
  cases i <;> rfl

end

/-- R60: where REP_MODE stood does not matter to SET_REP. -/
theorem accept_setRep_reframe (f : RepMode → RepMode) (c : Config) (arg : Byte) (s : State) :
    accept c (.setRep arg) (s.reframe f [] []) = accept c (.setRep arg) s := rfl

/-- R11: an operation that is neither a measurement nor SET_REP is accepted alike in every REP_MODE. -/
theorem accept_reframe_repMode (f : RepMode → RepMode) (c : Config) {i : Instr} (s : State)
    (hset : ∀ arg, i ≠ .setRep arg) (hstart : i ≠ .startMeas) (hmeas : i ≠ .measBlocking) :
    accept c i (s.reframe f [] []) = (accept c i s).reframe f [] [] := by
  cases i with
  | setRep arg => exact absurd rfl (hset arg)
  | startMeas => exact absurd rfl hstart
  | measBlocking => exact absurd rfl hmeas
  | _ => rfl

/-- The outcome with its next state, where there is one, changed by `g`. -/
def mapNext (g : State → State) : Host.Outcome State Fault Refusal → Host.Outcome State Fault Refusal
  | .next t => .next (g t)
  | .fault r => .fault r
  | .refused r => .refused r

/-- R29: a step does the same after any history. -/
theorem step_reframe_history (past : List Event) (said : List Response) (s : State) :
    step (s.reframe id past said) = mapNext (State.reframe id past said) (step s) := by
  cases hs : s.busy with
  | true =>
    by_cases hreset : s.host.head? = some .reset
    · rw [step_busy_reset hs hreset, step_busy_reset ((reframe_busy ..).trans hs) hreset, mapNext]
    · rw [step_busy hs hreset, step_busy ((reframe_busy ..).trans hs) hreset, mapNext, finish_reframe]
  | false =>
    match hhost : s.host with
    | [] => rw [step_waiting hs hhost, step_waiting ((reframe_busy ..).trans hs) hhost, mapNext]
    | .reset :: rest =>
      rw [step_reset hs hhost, step_reset ((reframe_busy ..).trans hs) hhost]
      rfl
    | .request w :: rest =>
      cases hi : decodeReq w with
      | error e =>
        rw [step_reserved hs hhost hi, step_reserved ((reframe_busy ..).trans hs) hhost hi, mapNext]
      | ok i =>
        rw [step_request hs hhost hi, step_request ((reframe_busy ..).trans hs) hhost hi, mapNext,
          ← finish_reframe, ← accept_reframe_history]
        rfl

end Sys2Proof.Machine
end

section
/-! The statements about the block's state (10_state.md), settled. -/

namespace Sys2Proof.Machine

/-- Settles O4: acceptance leaves the idle position, and a busy block's step is `finish`, which gives one response. -/
theorem busyHoldsTheHost : Obligations.BusyHoldsTheHost := by
  refine ⟨fun i s hi _ => accept_busy built s hi, fun s hs hhost => ?_, rfl⟩
  obtain ⟨p, hfinish, -, hphost, hpresp⟩ := runsToResponse_of_busy built hs
  exact ⟨give p, p.1, hfinish ▸ step_busy hs hhost, hphost, rfl, by rw [give_responses, hpresp]⟩

/-- Settles O10, by the format of the instruction and the position of the block. -/
theorem meaningStopsOnlyHere : Obligations.MeaningStopsOnlyHere := by
  intro i s
  rcases wellFormed_req_or_cmd i with hi | hi
  · cases hs : s.busy with
    | false => exact .inl ⟨_, exec_request hi hs⟩
    | true => exact .inr (.inl ⟨hi, rfl, exec_request_busy hi hs⟩)
  · rw [exec_command i s hi]
    by_cases hpos : ∃ w after, s.pos = .command w after
    · obtain ⟨w, after, hpos⟩ := hpos
      exact .inl ⟨_, atCommandPhase_command _ hpos⟩
    · have hout : ∀ w after, s.pos ≠ .command w after := fun w after h => hpos ⟨w, after, h⟩
      exact .inr (.inr ⟨hi, hout, atCommandPhase_refused _ hout⟩)

/-- Settles O38: among the steps only a reset's and an acceptance write REP_MODE, since `finish` keeps it. -/
theorem onlySetRepAndResetWriteRepMode : Obligations.OnlySetRepAndResetWriteRepMode := by
  intro s t hstep hchange
  cases hs : s.busy with
  | true =>
    by_cases hreset : s.host.head? = some .reset
    · cases hstep.symm.trans (step_busy_reset hs hreset)
    · cases hstep.symm.trans (step_busy hs hreset)
      exact absurd (finish_repMode built s) hchange
  | false =>
    refine ⟨rfl, ?_⟩
    match hhost : s.host with
    | [] =>
      cases hstep.symm.trans (step_waiting hs hhost)
      exact absurd rfl hchange
    | .reset :: rest =>
      cases hstep.symm.trans (step_reset hs hhost)
      exact .inl ⟨rfl, rfl⟩
    | .request w :: rest =>
      cases hi : decodeReq w with
      | error e => cases hstep.symm.trans (step_reserved hs hhost hi)
      | ok i =>
        cases hstep.symm.trans (step_request hs hhost hi)
        rw [finish_repMode] at hchange ⊢
        rcases accept_repMode built i { s with host := rest } with hsame | ⟨arg, rfl, hwrite⟩
        · exact absurd hsame hchange
        · exact .inr ⟨w, arg, rfl, hi, hwrite⟩

/-- Settles O39: SET_REP is accepted to the same state whatever REP_MODE was, and for the other operations a state with
another REP_MODE is a `reframe`, with which acceptance and `finish` commute. -/
theorem onlyMeasurementsReadRepMode : Obligations.OnlyMeasurementsReadRepMode := by
  intro i s m hi hstart hmeas hs
  have hother : exec i { s with repMode := m } = .next (finish built (accept built i (s.reframe (fun _ => m) [] []))) :=
    exec_request hi hs
  refine ⟨_, _, exec_request hi hs, hother, ?_⟩
  by_cases hset : ∃ arg, i = .setRep arg
  · obtain ⟨arg, rfl⟩ := hset
    rw [accept_setRep_reframe]
    exact ⟨rfl, .inl ⟨arg, rfl, rfl⟩⟩
  · have hnot : ∀ arg, i ≠ .setRep arg := fun arg h => hset ⟨arg, h⟩
    have hkept : (accept built i s).repMode = s.repMode :=
      (accept_repMode built i s).resolve_right fun ⟨arg, h, _⟩ => hnot arg h
    rw [accept_reframe_repMode _ built s hnot hstart hmeas, finish_reframe]
    exact ⟨rfl, .inr ⟨by rw [finish_repMode, hkept], rfl⟩⟩

/-- Settles O40: both states are a history before the same state without one, and a step commutes with a history. -/
theorem pastIsNotRead : Obligations.PastIsNotRead := by
  intro s past said
  have hown := step_reframe_history s.trace s.responses { s with trace := [], responses := [] }
  have hother := step_reframe_history past said { s with trace := [], responses := [] }
  rw [reframe_empty_history] at hown
  have hstate : State.reframe id past said { s with trace := [], responses := [] }
      = { s with trace := past, responses := said } := by
    simp [State.reframe]
  rw [hstate] at hother
  rw [hown, hother]
  cases step { s with trace := [], responses := [] } with
  | next t => exact ⟨t.trace, t.responses, rfl, rfl, rfl⟩
  | fault r => rfl
  | refused r => rfl

/-- Settles O7: exec of the decoded word sends it, and the rest of the operation is the same before and after. -/
theorem stepRunsDecodedCommand : Obligations.StepRunsDecodedCommand := by
  intro s w after i hpos hhost hi
  have hs : s.busy = true := (busy_eq_true_iff s).mpr (by simp [hpos])
  exact ⟨_, exec_decodedCommand hpos hi, by rw [step_busy hs hhost, finish_command built hpos]⟩

end Sys2Proof.Machine
end

section
/-! SUPPORT. What the outward ports carry (20_memory.md): a micro-step appends at most one event, and from a legal
position that event is legal and the next position is legal again. -/

namespace Sys2Proof.Machine

/-! ### The command phase -/

@[simp] theorem afterCommand_trace (c : Config) (after : AfterCommand) (st : Status) (s : State) :
    (afterCommand c after st s).trace = s.trace := by
  cases after with
  | respond => rfl
  | read us kind =>
    simp only [afterCommand]
    split
    · rfl
    · rw [prepare_trace, readResponse_trace]

/-- R53: the command phase is one write of the word's two bytes, whatever follows it. -/
@[simp] theorem sendCommand_trace (c : Config) (w : Word) (after : AfterCommand) (s : State) :
    (sendCommand c w after s).trace
      = s.trace ++ [.write c.devAddr [hiByte w, loByte w] s.engine.writeStatus] := by
  rw [sendCommand, afterCommand_trace, writeCmd_trace]

theorem sendCommand_pos_legal {c : Config} {w : Word} {after : AfterCommand} (s : State)
    (h : (Pos.command w after).legal c) : (sendCommand c w after s).pos.legal c := by
  cases after with
  | respond => trivial
  | read us kind =>
    by_cases hw : s.engine.writeStatus = c.stOk
    · rw [sendCommand_read_ok w us kind hw]
      exact h.2
    · rw [sendCommand_read_fail w us kind hw]
      trivial

/-! ### A micro-step -/

/-- R25, R58: the read of one word or of two takes 3 or 6 bytes of DEV_ADDR. -/
theorem read_legal (c : Config) (count : WordCount) (st : Status) (buf : Nat → Byte) :
    (Event.read c.devAddr (3 * count.words) st ((List.range (3 * count.words)).map buf)).legal c := by
  refine ⟨rfl, ?_, by simp⟩
  cases count with
  | one => exact .inl rfl
  | two => exact .inr rfl

/-- R14, R27: a micro-step makes no transaction or one, and from a legal position only a legal one. -/
theorem microStep_trace_cases (c : Config) (s : State) :
    (microStep c s).trace = s.trace ∨
    ∃ e, (microStep c s).trace = s.trace ++ [e] ∧ (s.pos.legal c → e.legal c) := by
  cases hpos : s.pos with
  | idle => exact .inl (by rw [microStep_idle c hpos])
  | command w after =>
    refine .inr ⟨_, by rw [microStep_command c hpos, sendCommand_trace], fun h => ?_⟩
    have hw : c.isCommand w := by
      cases after with
      | respond => exact h
      | read us kind => exact h.1
    exact ⟨rfl, w, hw, rfl⟩
  | delay us kind => exact .inr ⟨.sleep us, by rw [microStep_delay c hpos, sleep_trace], id⟩
  | read kind =>
    refine .inr ⟨_, ?_, fun _ => read_legal c kind.count s.engine.readStatus s.engine.readByte⟩
    rw [microStep_read c hpos, prepare_trace, readResponse_trace, readWords_state, memRead_trace]
  | answer r => exact .inl (by rw [microStep_answer c hpos, give_trace])

theorem microStep_pos_legal {c : Config} {s : State} (h : s.pos.legal c) : (microStep c s).pos.legal c := by
  cases hpos : s.pos with
  | idle => rwa [microStep_idle c hpos]
  | command w after =>
    rw [microStep_command c hpos]
    exact sendCommand_pos_legal s (hpos ▸ h)
  | delay us kind =>
    rw [microStep_delay c hpos]
    trivial
  | read kind =>
    rw [microStep_read c hpos]
    trivial
  | answer r =>
    rw [microStep_answer c hpos]
    trivial

/-! ### The bus stays legal -/

theorem microStep_busLegal {s : State} (h : s.BusLegal) : (microStep built s).BusLegal := by
  obtain ⟨hevents, hpos⟩ := h
  refine ⟨?_, microStep_pos_legal hpos⟩
  rcases microStep_trace_cases built s with htrace | ⟨e, htrace, he⟩
  · rwa [htrace]
  · rw [htrace]
    simpa [or_imp, forall_and] using And.intro hevents (he hpos)

theorem finish_busLegal {s : State} (h : s.BusLegal) : (finish built s).BusLegal :=
  microStep_busLegal (microStep_busLegal (microStep_busLegal (microStep_busLegal h)))

/-- R41: the measurement command of any mode is one of the seven codes. -/
theorem measCmd_isCommand (c : Config) (m : RepMode) : c.isCommand (measCmd c m) := by
  cases m with
  | high => exact .inl rfl
  | medium => exact .inr (.inl rfl)
  | low => exact .inr (.inr (.inl rfl))

/-- Acceptance touches no port. -/
@[simp] theorem accept_trace (c : Config) (i : Instr) (s : State) : (accept c i s).trace = s.trace := by
  cases i <;> rfl

/-- R58: an operation is accepted to a position before one of the seven codes and, where a read follows, before one of
the three delays. -/
theorem accept_pos_legal {c : Config} (i : Instr) {s : State} (h : s.pos.legal c) : (accept c i s).pos.legal c := by
  cases i with
  | setRep | readMeas | getVersion | getAddr => trivial
  | startMeas => exact measCmd_isCommand c s.repMode
  | measBlocking => exact ⟨measCmd_isCommand c s.repMode, .inr (.inl rfl)⟩
  | heaterOn | heaterOff => simp [accept, Pos.legal, Config.isCommand]
  | probe | readSerial => simp [accept, Pos.legal, Config.isCommand, Config.isDelay]
  | _ => exact h

theorem accept_busLegal (i : Instr) {s : State} (h : s.BusLegal) : (accept built i s).BusLegal := by
  obtain ⟨hevents, hpos⟩ := h
  exact ⟨by rwa [accept_trace], accept_pos_legal i hpos⟩

end Sys2Proof.Machine
end

section
/-! The statements about the outward ports (20_memory.md), settled. -/

namespace Sys2Proof.Machine

/-- Settles O42: a step waits, resets, or is `accept` and `finish`, and each of them keeps the bus legal. -/
theorem stepKeepsBusLegal : Obligations.StepKeepsBusLegal := by
  intro s t hlegal hstep
  cases hs : s.busy with
  | true =>
    by_cases hreset : s.host.head? = some .reset
    · cases hstep.symm.trans (step_busy_reset hs hreset)
    · cases hstep.symm.trans (step_busy hs hreset)
      exact finish_busLegal hlegal
  | false =>
    match hhost : s.host with
    | [] =>
      cases hstep.symm.trans (step_waiting hs hhost)
      exact hlegal
    | .reset :: rest =>
      cases hstep.symm.trans (step_reset hs hhost)
      exact ⟨hlegal.1, trivial⟩
    | .request w :: rest =>
      cases hi : decodeReq w with
      | error e => cases hstep.symm.trans (step_reserved hs hhost hi)
      | ok i =>
        cases hstep.symm.trans (step_request hs hhost hi)
        have htaken : ({ s with host := rest } : State).BusLegal := hlegal
        exact finish_busLegal (accept_busLegal i htaken)

/-- Settles O41: `exec_request` for the operations, and the trace of a micro-step by its position. -/
theorem sequencerRefinesOperation : Obligations.SequencerRefinesOperation :=
  ⟨fun _ _ => exec_request,
    fun c s => (microStep_trace_cases c s).imp_right fun ⟨e, htrace, _⟩ => ⟨e, htrace⟩⟩

end Sys2Proof.Machine
end

section
/-! SUPPORT. The two encodings (30_encoding.md): what OPSEL selects and what ARG adds, said once of `operationOf` and
then of `decodeReq` in the terms of the word's two bytes; the round trip of each format; the row an operation sends. -/

namespace Sys2Proof.Machine

/-! ### OPSEL and ARG -/

/-- R38: the reserved OPSEL values are 0x0A and above. -/
theorem operationOf_eq_none_iff (opsel arg : Byte) : operationOf opsel arg = none ↔ 0x0A ≤ opsel.toNat := by
  unfold operationOf
  split
  case h_11 => simp only [imp_false, true_iff] at *; omega
  all_goals simp only [reduceCtorEq, false_iff]; omega

/-- R37: only SET_REP's OPSEL looks at ARG. -/
theorem operationOf_arg_ignored {opsel : Byte} (h : opsel.toNat ≠ 1) (a b : Byte) :
    operationOf opsel a = operationOf opsel b := by
  unfold operationOf
  split
  case h_2 hset => exact absurd hset h
  all_goals rfl

/-- The word of the operation an OPSEL selects has that OPSEL, and for SET_REP that ARG. -/
theorem encode_of_operationOf {opsel arg : Byte} {i : Instr} (h : operationOf opsel arg = some i) :
    ∃ b, encode i = wordOf opsel b ∧ (opsel.toNat = 1 → b = arg) := by
  unfold operationOf at h
  split at h
  case h_2 hop =>
    obtain rfl := Option.some.inj h
    obtain rfl : opsel = 1#8 := BitVec.eq_of_toNat_eq hop
    exact ⟨arg, rfl, fun _ => rfl⟩
  case h_11 => cases h
  all_goals
    rename_i hop
    obtain rfl := Option.some.inj h
    exact ⟨0#8, congrArg (wordOf · 0#8) (BitVec.eq_of_toNat_eq hop.symm), fun hset => by omega⟩

/-! ### Request words -/

theorem loByte_eq_ofNat (w : Word) : loByte w = BitVec.ofNat 8 (w.toNat % 256) := by
  apply BitVec.eq_of_toNat_eq
  simp [loByte_toNat]

theorem decodeReq_eq_ok_iff {w : Word} {i : Instr} :
    decodeReq w = .ok i ↔ operationOf (hiByte w) (loByte w) = some i := by
  unfold decodeReq
  cases operationOf (hiByte w) (loByte w) <;> simp

theorem decodeReq_wordOf {opsel arg : Byte} {i : Instr} (h : operationOf opsel arg = some i) :
    decodeReq (wordOf opsel arg) = .ok i := by
  rw [decodeReq_eq_ok_iff, hiByte_wordOf, loByte_wordOf, h]

/-- R33, R34: the operation is that of the word's upper byte. -/
theorem decodeReq_of_opsel {w : Word} {opsel : Byte} {i : Instr} (hop : w.toNat / 256 = opsel.toNat)
    (hi : operationOf opsel (loByte w) = some i) : decodeReq w = .ok i := by
  have hhi : hiByte w = opsel := BitVec.eq_of_toNat_eq ((hiByte_toNat w).trans hop)
  rw [decodeReq_eq_ok_iff, hhi, hi]

theorem decodeReq_reserved {w : Word} (h : 0x0A ≤ w.toNat / 256) :
    decodeReq w = .error (.reservedOpsel (hiByte w)) := by
  have hnone : operationOf (hiByte w) (loByte w) = none := by rwa [operationOf_eq_none_iff, hiByte_toNat]
  simp [decodeReq, hnone]

theorem decodeReq_of_not_reserved {w : Word} (h : w.toNat / 256 < 0x0A) : ∃ i, decodeReq w = .ok i := by
  have hsome : operationOf (hiByte w) (loByte w) ≠ none := by
    rw [Ne, operationOf_eq_none_iff, hiByte_toNat]
    omega
  obtain ⟨i, hi⟩ := Option.ne_none_iff_exists'.mp hsome
  exact ⟨i, decodeReq_eq_ok_iff.mpr hi⟩

/-- R37, for request words. -/
theorem decodeReq_arg_ignored {w v : Word} (hop : w.toNat / 256 = v.toNat / 256) (hset : w.toNat / 256 ≠ 1) :
    decodeReq w = decodeReq v := by
  have hhi : hiByte w = hiByte v := BitVec.eq_of_toNat_eq (by rw [hiByte_toNat, hiByte_toNat, hop])
  have hargs := operationOf_arg_ignored ((hiByte_toNat w).trans_ne hset) (loByte w) (loByte v)
  rw [decodeReq, decodeReq, hargs, hhi]

/-- The encoding of a decoded request has the request's OPSEL, and for SET_REP is the request word. -/
theorem encode_of_decodeReq {w : Word} {i : Instr} (h : decodeReq w = .ok i) :
    (encode i).toNat / 256 = w.toNat / 256 ∧ (w.toNat / 256 = 1 → encode i = w) := by
  obtain ⟨b, henc, harg⟩ := encode_of_operationOf (decodeReq_eq_ok_iff.mp h)
  rw [hiByte_toNat] at harg
  refine ⟨by rw [henc, ← hiByte_toNat, hiByte_wordOf, hiByte_toNat], fun hset => ?_⟩
  rw [henc, harg hset, wordOf_hiByte_loByte]

/-! ### The round trip of each format -/

theorem decodeReq_encode {i : Instr} (h : i.wellFormed .req = true) : decodeReq (encode i) = .ok i := by
  cases i with
  | probe | setRep | startMeas | readMeas | measBlocking | heaterOn | heaterOff | readSerial | getVersion | getAddr =>
    exact decodeReq_wordOf rfl
  | _ => cases h

theorem decodeCmd_encode {i : Instr} (h : i.wellFormed .cmd = true) : decodeCmd (encode i) = .ok i := by
  cases i with
  | probe | setRep | startMeas | readMeas | measBlocking | heaterOn | heaterOff | readSerial | getVersion | getAddr =>
    cases h
  | _ => rfl

/-- R38, R40: the upper byte of every default command code is a reserved OPSEL. -/
theorem encode_command_reserved {i : Instr} (h : i.wellFormed .cmd = true) : 0x0A ≤ (encode i).toNat / 256 := by
  cases i with
  | probe | setRep | startMeas | readMeas | measBlocking | heaterOn | heaterOff | readSerial | getVersion | getAddr =>
    cases h
  | _ => decide

/-! ### The row an operation sends -/

/-- R40: the row of the measurement command of a repeatability mode, for either setting of P_CLOCK_STRETCH. -/
def measRow : RepMode → Bool → Instr
  | .high, false => .cmdMeasHigh
  | .medium, false => .cmdMeasMedium
  | .low, false => .cmdMeasLow
  | .high, true => .cmdMeasHighCs
  | .medium, true => .cmdMeasMediumCs
  | .low, true => .cmdMeasLowCs

theorem decodeCmd_measCmd (m : RepMode) (stretch : Bool) :
    decodeCmd (measCmd (defaultConfig stretch) m) = .ok (measRow m stretch) := by
  have hword : measCmd (defaultConfig stretch) m = encode (measRow m stretch) := by
    cases m <;> cases stretch <;> rfl
  have hcmd : (measRow m stretch).wellFormed .cmd = true := by
    cases m <;> cases stretch <;> rfl
  rw [hword, decodeCmd_encode hcmd]

/-! ### Acceptance and the host port -/

@[simp] theorem accept_host (c : Config) (i : Instr) (s : State) : (accept c i s).host = s.host := by
  cases i <;> rfl

@[simp] theorem accept_responses (c : Config) (i : Instr) (s : State) : (accept c i s).responses = s.responses := by
  cases i <;> rfl

end Sys2Proof.Machine
end

section
/-! The statements about the encodings and the request port (30_encoding.md), settled. -/

namespace Sys2Proof.Machine

/-- Settles O12, format by format. -/
theorem decodeInvertsEncode : Obligations.DecodeInvertsEncode := by
  intro f i h
  cases f with
  | req => exact decodeReq_encode h
  | cmd => exact decodeCmd_encode h

/-- Settles O3: below 0x0A00 the word decodes and is run, from there on its OPSEL is reserved. -/
theorem reservedRequestRefused : Obligations.ReservedRequestRefused := by
  intro s w rest hs hhost
  constructor
  · intro hreserved
    exact step_reserved hs hhost (decodeReq_reserved (by omega))
  · intro hlow
    obtain ⟨i, hi⟩ := decodeReq_of_not_reserved (w := w) (by omega)
    exact ⟨_, step_request hs hhost hi⟩

/-- Settles O5: acceptance makes the block busy and gives no response, and a busy block runs to exactly one. -/
theorem oneRequestOneResponse : Obligations.OneRequestOneResponse := by
  intro s w rest i hs hhost hi
  have hbusy := accept_busy built { s with host := rest } (wellFormed_of_decodeReq hi)
  obtain ⟨p, hfinish, -, hphost, hpresp⟩ := runsToResponse_of_busy built hbusy
  rw [accept_host] at hphost
  rw [accept_responses] at hpresp
  exact ⟨give p, p.1, hfinish ▸ step_request hs hhost hi, by rw [give_responses, hpresp], give_busy p, hphost⟩

/-- Settles O13: a request by its two bytes, a command by the table. -/
theorem encodeInvertsDecode : Obligations.EncodeInvertsDecode :=
  ⟨fun _ _ h => ⟨wellFormed_of_decodeReq h, encode_of_decodeReq h⟩, fun _ _ => wellFormed_encode_of_decodeCmd⟩

/-- Settles O14: each clause is the value of `operationOf` at one OPSEL. -/
theorem opselSelectsOperation : Obligations.OpselSelectsOperation := by
  intro w
  refine ⟨fun h => decodeReq_of_opsel (opsel := 0x00#8) h rfl, fun h => ?_,
    fun h => decodeReq_of_opsel (opsel := 0x02#8) h rfl, fun h => decodeReq_of_opsel (opsel := 0x03#8) h rfl,
    fun h => decodeReq_of_opsel (opsel := 0x04#8) h rfl, fun h => decodeReq_of_opsel (opsel := 0x05#8) h rfl,
    fun h => decodeReq_of_opsel (opsel := 0x06#8) h rfl, fun h => decodeReq_of_opsel (opsel := 0x07#8) h rfl,
    fun h => decodeReq_of_opsel (opsel := 0x08#8) h rfl, fun h => decodeReq_of_opsel (opsel := 0x09#8) h rfl,
    fun h => ⟨_, decodeReq_reserved h⟩⟩
  rw [← loByte_eq_ofNat]
  exact decodeReq_of_opsel (opsel := 0x01#8) h rfl

/-- Settles O15: the two words decode to one operation, and the step is that operation's once the word is taken. -/
theorem argIgnoredButBySetRep : Obligations.ArgIgnoredButBySetRep := by
  intro w v s rest hop hset hlow hs
  have halike := decodeReq_arg_ignored hop hset
  obtain ⟨i, hw⟩ := decodeReq_of_not_reserved hlow
  have hv : decodeReq v = .ok i := halike ▸ hw
  exact ⟨halike, (step_request (s := { s with host := .request w :: rest }) hs rfl hw).trans
    (step_request (s := { s with host := .request v :: rest }) hs rfl hv).symm⟩

/-- Settles O16: a command word is the code of its row, whose upper byte is a reserved OPSEL. -/
theorem formatsAreDisjoint : Obligations.FormatsAreDisjoint := by
  intro w i h
  obtain ⟨hcmd, rfl⟩ := wellFormed_encode_of_decodeCmd h
  exact ⟨_, decodeReq_reserved (encode_command_reserved hcmd)⟩

/-- Settles O18: the word an operation is accepted to stand before is the encoding of its row. -/
theorem operationsSendTheirRow : Obligations.OperationsSendTheirRow := by
  intro s stretch
  refine ⟨⟨_, _, rfl, decodeCmd_encode (i := .cmdReadStatus) rfl⟩,
    ⟨_, _, rfl, decodeCmd_encode (i := .cmdReadSerial) rfl⟩, ⟨_, _, rfl, decodeCmd_encode (i := .cmdHeaterOn) rfl⟩,
    ⟨_, _, rfl, decodeCmd_encode (i := .cmdHeaterOff) rfl⟩, ?_⟩
  rintro i (rfl | rfl)
  all_goals exact ⟨_, _, rfl, decodeCmd_measCmd s.repMode stretch⟩

/-- Settles O6: the step and the meaning are the same acceptance and the same micro-steps. -/
theorem stepRunsDecodedRequest : Obligations.StepRunsDecodedRequest := by
  intro s w rest i hs hhost hi
  rw [step_request hs hhost hi]
  exact (exec_request (s := { s with host := rest }) (wellFormed_of_decodeReq hi) hs).symm

/-- Settles O17, word by word. -/
theorem sampleWordsDecode : Obligations.SampleWordsDecode :=
  ⟨rfl, rfl, rfl, rfl, rfl, rfl, rfl, rfl, rfl, rfl⟩

end Sys2Proof.Machine
end

section
/-! The statements about TCONV (40_converter.md), settled. The 32-bit result is exact, and it is the one integer whose
8192-fold lies less than 8192 below that of the temperature: `tConv_toInt_eq_iff`. -/

namespace Sys2Proof.Machine

/-- The shift of R46 written as a division. -/
theorem tConvInt_eq (t : Word) : tConvInt t = ((21875 * t.toNat / 2 ^ 13 : Nat) : Int) - 45000 := by
  rw [tConvInt, Nat.shiftRight_eq_div_pow]

theorem tConvInt_range (t : Word) : -45000 ≤ tConvInt t ∧ tConvInt t ≤ 129997 := by
  have ht : t.toNat < 65536 := t.isLt
  rw [tConvInt_eq]
  omega

/-- R50: 32 bits hold the mathematical value. -/
@[simp] theorem tConv_toInt (t : Word) : (tConv t).toInt = tConvInt t := by
  have hrange := tConvInt_range t
  exact BitVec.toInt_ofInt_eq_self (by decide) (by omega) (by omega)

/-- TConv without a division: the whole multiples of 8192 that enclose the product of R46. -/
theorem tConv_toInt_eq_iff {t : Word} {n : Int} :
    (tConv t).toInt = n ↔ 8192 * (n + 45000) ≤ 21875 * t.toNat ∧ 21875 * t.toNat < 8192 * (n + 45000) + 8192 := by
  rw [tConv_toInt, tConvInt_eq]
  omega

theorem tConv_toInt_bounds (t : Word) :
    8192 * ((tConv t).toInt + 45000) ≤ 21875 * t.toNat ∧
      21875 * t.toNat < 8192 * ((tConv t).toInt + 45000) + 8192 :=
  tConv_toInt_eq_iff.mp rfl

/-- R47: 18 bits hold the value too, and TEMP is their sign extension. -/
theorem tConv_eq_signExtend (t : Word) : tConv t = (BitVec.ofInt 18 (tConvInt t)).signExtend 32 := by
  have hrange := tConvInt_range t
  have h18 : (BitVec.ofInt 18 (tConvInt t)).toInt = tConvInt t :=
    BitVec.toInt_ofInt_eq_self (by decide) (by omega) (by omega)
  rw [BitVec.signExtend, h18, tConv]

/-- In a word sign-extended from `m + 1` bits, bit `m` and each bit above it are the sign. -/
theorem getLsbD_signExtend_of_le {m v k : Nat} (x : BitVec (m + 1)) (hm : m ≤ k) (hk : k < v) :
    (x.signExtend v).getLsbD k = x.msb := by
  rw [BitVec.getLsbD_signExtend]
  obtain rfl | hlt := hm.eq_or_lt
  · simp [BitVec.msb_eq_getLsbD_last, hk]
  · simp [hk, Nat.not_lt.mpr (Nat.succ_le_of_lt hlt)]

/-- Consecutive ticks: the product grows by 21875, more than twice and less than three times 8192. -/
theorem tConv_succ {t : Word} (ht : t.toNat < 65535) :
    (tConv (t + 1)).toInt = (tConv t).toInt + 2 ∨ (tConv (t + 1)).toInt = (tConv t).toInt + 3 := by
  have hsucc : (t + 1).toNat = t.toNat + 1 := BitVec.toNat_add_of_lt (by simpa using Nat.succ_lt_succ ht)
  have h := tConv_toInt_bounds t
  have h' := tConv_toInt_bounds (t + 1)
  rw [hsucc] at h'
  omega

theorem tConv_strictMono {t u : Word} (h : t.toNat < u.toNat) : (tConv t).toInt < (tConv u).toInt := by
  have ht := tConv_toInt_bounds t
  have hu := tConv_toInt_bounds u
  omega

/-- 0 lies strictly between the values at 16852 and 16853. -/
theorem tConv_ne_zero (t : Word) : (tConv t).toInt ≠ 0 := by
  intro h
  obtain ⟨hle, hlt⟩ := tConv_toInt_eq_iff.mp h
  omega

theorem tConv_mem_fixture_iff (t : Word) :
    (5000 ≤ (tConv t).toInt ∧ (tConv t).toInt ≤ 45000) ↔ (18725 ≤ t.toNat ∧ t.toNat ≤ 33704) := by
  have ht := tConv_toInt_bounds t
  omega

/-- Settles O35: the bounds on TConv, divided by 8192, are those that determine the floor. -/
theorem converterIsFloorOfTemperature : Obligations.ConverterIsFloorOfTemperature := by
  intro t
  obtain ⟨hle, hlt⟩ := tConv_toInt_bounds t
  have hleQ : (8192 : ℚ) * ((tConv t).toInt + 45000) ≤ 21875 * t.toNat := by exact_mod_cast hle
  have hltQ : (21875 : ℚ) * t.toNat < 8192 * ((tConv t).toInt + 45000) + 8192 := by exact_mod_cast hlt
  refine ⟨(Int.floor_eq_iff.mpr ⟨?_, ?_⟩).symm, ?_, ?_⟩ <;> linarith

/-- Settles O36: each clause from the bounds on TConv, the printed values by evaluation. -/
theorem converterProperties : Obligations.ConverterProperties :=
  ⟨fun _ _ => tConv_strictMono, fun _ => tConv_succ, rfl, rfl, tConv_ne_zero, rfl, rfl, tConv_mem_fixture_iff,
    rfl, rfl, rfl, rfl⟩

/-- Settles O37: bit 17 is the top one of the 18 bits that TEMP extends. -/
theorem converterFitsEighteenBits : Obligations.ConverterFitsEighteenBits := by
  intro t k hk hk32
  rw [tConv_eq_signExtend, getLsbD_signExtend_of_le _ (by omega) hk32, getLsbD_signExtend_of_le _ le_rfl (by decide)]

/-- Settles O34: the 32-bit result is exact, and its range is that of the integer. -/
theorem converterFormula : Obligations.ConverterFormula := by
  intro t
  rw [tConv_toInt]
  exact ⟨tConvInt_eq t, tConvInt_range t⟩

end Sys2Proof.Machine
end

section
/-! SUPPORT. The micro-operations (41_wrapper.md): the command word by its two bytes, what the CRC check refuses, and
what the command phase and DELAYED_READ_CMD leave of the state. -/

namespace Sys2Proof.Machine

/-! ### WRITE_CMD -/

theorem hiByte_eq_ofNat (w : Word) : hiByte w = BitVec.ofNat 8 (w.toNat / 256) := by
  apply BitVec.eq_of_toNat_eq
  have := w.isLt
  rw [hiByte_toNat, BitVec.toNat_ofNat]
  omega

/-- R39, R53: one write of the word's quotient and remainder by 256. -/
theorem writeCmd_eq (c : Config) (w : Word) (s : State) :
    writeCmd c w s = (s.engine.writeStatus, { s with
      engine := s.engine.afterWrite
      trace := s.trace ++ [.write c.devAddr
        [BitVec.ofNat 8 (w.toNat / 256), BitVec.ofNat 8 (w.toNat % 256)] s.engine.writeStatus] }) := by
  rw [← hiByte_eq_ofNat, ← loByte_eq_ofNat]
  rfl

/-! ### READ_WORDS -/

theorem frameCrcOk_eq_false_iff (c : Config) (count : WordCount) (buf : Nat → Byte) :
    frameCrcOk c count buf = false ↔
      ∃ i < count.words, c.crc8 [buf (3 * i), buf (3 * i + 1)] ≠ buf (3 * i + 2) := by
  rw [← Bool.not_eq_true, frameCrcOk_iff]
  simp only [not_forall, exists_prop, ne_eq]

theorem frameWord_toNat (buf : Nat → Byte) (i : Nat) :
    (frameWord buf i).toNat = (buf (3 * i)).toNat * 256 + (buf (3 * i + 1)).toNat := by
  rw [frameWord, wordOf_toNat, Nat.mul_comm]

/-- R54: words are delivered from an accepted frame alone. -/
theorem frameCrcOk_of_readWords_ok {c : Config} {count : WordCount} {s : State} {words : Nat → Word}
    (h : (readWords c count s).1 = .ok words) : frameCrcOk c count s.engine.readByte = true := by
  rcases readWords_cases c count s with ⟨-, herr⟩ | ⟨-, -, herr⟩ | ⟨-, hcrc, -⟩
  · cases h.symm.trans herr
  · cases h.symm.trans herr
  · exact hcrc

/-! ### DELAYED_READ_CMD -/

/-- R55: the read answers what READ_WORDS would have answered before the write and the delay. -/
theorem delayedReadCmd_ok_answer {c : Config} {s : State} (cmd : Word) (us : Nat) (count : WordCount)
    (h : s.engine.writeStatus = c.stOk) :
    (delayedReadCmd c cmd us count s).1 = (readWords c count s).1 := by
  rw [delayedReadCmd_ok cmd us count h, readWords_eq, readWords_eq, sleep_engine, writeCmd_engine,
    readOutcome_afterWrite]

/-- R55: the write, the delay and the read, in that order, and nothing else. -/
theorem delayedReadCmd_ok_state {c : Config} {s : State} (cmd : Word) (us : Nat) (count : WordCount)
    (h : s.engine.writeStatus = c.stOk) :
    (delayedReadCmd c cmd us count s).2 = { s with
      engine := s.engine.afterWrite.afterRead
      trace := s.trace ++ [.write c.devAddr
          [BitVec.ofNat 8 (cmd.toNat / 256), BitVec.ofNat 8 (cmd.toNat % 256)] s.engine.writeStatus, .sleep us,
        .read c.devAddr (3 * count.words) s.engine.readStatus
          ((List.range (3 * count.words)).map s.engine.readByte)] } := by
  rw [delayedReadCmd_ok cmd us count h, readWords_state, writeCmd_eq]
  simp only [memRead, sleep, List.append_assoc, List.cons_append, List.nil_append]
  rfl

/-! ### The command phase -/

/-- The row of a command word, read from its instruction. -/
theorem wellFormed_encode_of_mem_rows {i : Instr} {code : Word} (h : (i, code) ∈ commandTable.map Prod.swap) :
    i.wellFormed .cmd = true ∧ encode i = code := by
  obtain ⟨row, hrow, hswap⟩ := List.mem_map.mp h
  cases hswap
  exact wellFormed_encode_of_mem_commandTable row hrow

/-- After the write the block moves on, and at most draws an unspecified result. -/
theorem afterCommand_state (c : Config) (after : AfterCommand) (st : Status) (s : State) :
    ∃ p d, afterCommand c after st s = { s with pos := p, draws := d } := by
  cases after with
  | respond => exact ⟨_, _, rfl⟩
  | read us kind =>
    by_cases hst : st = c.stOk
    · exact ⟨.delay us kind, s.draws, by simp [afterCommand, hst]⟩
    · obtain ⟨d, hd⟩ := readResponse_state c kind (.error st) s
      exact ⟨.answer (readResponse c kind (.error st) s).1, d, by simp [afterCommand, hst, prepare, hd]⟩

theorem sendCommand_state (c : Config) (w : Word) (after : AfterCommand) (s : State) :
    ∃ p d, sendCommand c w after s = { (writeCmd c w s).2 with pos := p, draws := d } :=
  afterCommand_state c after _ _

/-- R73: a write that is not OK leads to the response with its status. -/
theorem sendCommand_pos_of_fail {c : Config} {s : State} (w : Word) (after : AfterCommand)
    (h : s.engine.writeStatus ≠ c.stOk) :
    ∃ r, (sendCommand c w after s).pos = .answer r ∧ r.status = s.engine.writeStatus := by
  cases after with
  | respond => exact ⟨_, rfl, rfl⟩
  | read us kind =>
    rw [sendCommand_read_fail w us kind h]
    exact ⟨_, rfl, readResponse_error_status ..⟩

end Sys2Proof.Machine
end

section
/-! The statements about the wrapper's micro-operations (41_wrapper.md), settled. -/

namespace Sys2Proof.Machine

/-- Settles O27: the ten rows are the command table, `exec` of a row sends its code, and what follows the write only
moves the block on. -/
theorem commandWordResult : Obligations.CommandWordResult := by
  intro i code s w after hrow hpos
  obtain ⟨hcmd, rfl⟩ := wellFormed_encode_of_mem_rows hrow
  obtain ⟨p, d, hsent⟩ := sendCommand_state built (encode i) after s
  refine ⟨sendCommand built (encode i) after s, by rw [exec_command i s hcmd, atCommandPhase_command _ hpos],
    ?_, ?_, ?_, ?_, ?_, sendCommand_pos_of_fail _ after, ?_, ?_⟩
  · rw [hsent, writeCmd_eq]
  · rw [hsent, writeCmd_engine]
  · rw [hsent, writeCmd_repMode]
  · rw [hsent, writeCmd_host]
  · rw [hsent, writeCmd_responses]
  · rintro rfl
    exact ⟨rfl, rfl⟩
  · rintro us kind hok rfl
    rw [sendCommand_read_ok _ us kind hok]
    exact ⟨rfl, rfl⟩

/-- Settles O28: the state READ_WORDS leaves, and its three outcomes. -/
theorem readWordsResult : Obligations.ReadWordsResult := by
  intro c count s n st buf
  have hn : n = count.words := by cases count <;> rfl
  rw [hn]
  refine ⟨readWords_state c count s, readWords_transport count, fun hst hbad => ?_, fun hst hgood => ?_⟩
  · exact readWords_mismatch hst ((frameCrcOk_eq_false_iff c count buf).mpr hbad)
  · exact ⟨_, readWords_good hst ((frameCrcOk_iff c count buf).mpr hgood), fun i _ => frameWord_toNat buf i⟩

/-- Settles O29: the write, and behind it nothing or the delay and the read. -/
theorem delayedReadCommandResult : Obligations.DelayedReadCommandResult := by
  intro c cmd us count s n ws st buf w
  have hn : n = count.words := by cases count <;> rfl
  rw [hn]
  refine ⟨writeCmd_eq c cmd s, fun hfail => ?_, fun hok => ?_⟩
  · rw [delayedReadCmd_fail cmd us count hfail, writeCmd_eq]
  · exact ⟨delayedReadCmd_ok_answer cmd us count hok, delayedReadCmd_ok_state cmd us count hok⟩

/-- Settles O30: the CRC of the two data bytes, which are as in the accepted frame, is the old CRC byte. -/
theorem flippedCrcByteFails : Obligations.FlippedCrcByteFails := by
  intro c count s t i words hi hs hst hsame hflip
  have haccepted := (frameCrcOk_iff c count s.engine.readByte).mp (frameCrcOk_of_readWords_ok hs) i hi
  have hrefused : c.crc8 [t.engine.readByte (3 * i), t.engine.readByte (3 * i + 1)]
      ≠ t.engine.readByte (3 * i + 2) := by
    rw [hsame (3 * i) (by omega), hsame (3 * i + 1) (by omega), haccepted]
    exact hflip.symm
  exact readWords_mismatch hst ((frameCrcOk_eq_false_iff c count t.engine.readByte).mpr ⟨i, hi, hrefused⟩)

end Sys2Proof.Machine
end

section
/-! SUPPORT. The STATUS of an operation that reads (R59, R62, R63, R66): the outcome of the micro-operation decides it,
whatever the operation does with the words. -/

namespace Sys2Proof.Machine

/-- The STATUS a response takes from what READ_WORDS or DELAYED_READ_CMD answered. -/
def outcomeStatus (c : Config) : WordsOrStatus → Status
  | .ok _ => c.stOk
  | .error st => st

@[simp] theorem outcomeStatus_ok (c : Config) (words : Nat → Word) : outcomeStatus c (.ok words) = c.stOk := rfl

@[simp] theorem outcomeStatus_error (c : Config) (st : Status) : outcomeStatus c (.error st) = st := rfl

theorem readResponse_status (c : Config) (kind : ReadKind) (w : WordsOrStatus) (s : State) :
    (readResponse c kind w s).1.status = outcomeStatus c w := by
  cases w with
  | ok words => exact readResponse_ok_status c kind words s
  | error st => exact readResponse_error_status c kind st s

/-- R59: PROBE's response is the status alone, and giving it draws no free value. -/
theorem readResponse_probe (c : Config) (w : WordsOrStatus) (s : State) :
    readResponse c .status w s = ({ status := outcomeStatus c w, data := .none }, s) := by
  cases w <;> rfl

/-! ### The frames of one and of two words -/

theorem frameCrcOk_one_iff (c : Config) (buf : Nat → Byte) :
    frameCrcOk c .one buf = true ↔ c.crc8 [buf (3 * 0), buf (3 * 0 + 1)] = buf (3 * 0 + 2) := by
  simp only [frameCrcOk_iff, WordCount.words, Nat.lt_one_iff, forall_eq]

theorem frameCrcOk_two_iff (c : Config) (buf : Nat → Byte) :
    frameCrcOk c .two buf = true ↔
      c.crc8 [buf (3 * 0), buf (3 * 0 + 1)] = buf (3 * 0 + 2) ∧
        c.crc8 [buf (3 * 1), buf (3 * 1 + 1)] = buf (3 * 1 + 2) := by
  rw [frameCrcOk_iff]
  exact Nat.forall_lt_succ_right.trans (and_congr_left' (by simp))

/-! ### The statuses of the micro-operations -/

/-- R54 for one word: the transport's failure before the refused CRC, the refused CRC before OK. -/
theorem outcomeStatus_readWords_one (c : Config) (s : State) :
    outcomeStatus c (readWords c .one s).1 =
      if s.engine.readStatus ≠ c.stOk then s.engine.readStatus
      else if c.crc8 [s.engine.readByte 0, s.engine.readByte 1] ≠ s.engine.readByte 2 then c.stCrcFail
      else c.stOk := by
  have hcrc := frameCrcOk_one_iff c s.engine.readByte
  rcases readWords_cases c .one s with ⟨hst, hw⟩ | ⟨hst, hbad, hw⟩ | ⟨hst, hgood, hw⟩
  · rw [hw, if_pos hst, outcomeStatus_error]
  · rw [hw, if_neg (not_not_intro hst), if_pos (fun h => by simp [hcrc.mpr h] at hbad), outcomeStatus_error]
  · rw [hw, if_neg (not_not_intro hst), if_neg (not_not_intro (hcrc.mp hgood)), outcomeStatus_ok]

/-- R54: OK means that the transaction and every CRC byte were good, because CRC_FAIL is not OK (R7). -/
theorem outcomeStatus_readWords_ok_iff {c : Config} (hc : c.wellFormed = true) (count : WordCount) (s : State) :
    outcomeStatus c (readWords c count s).1 = c.stOk ↔
      s.engine.readStatus = c.stOk ∧ frameCrcOk c count s.engine.readByte = true := by
  rcases readWords_cases c count s with ⟨hst, hw⟩ | ⟨hst, hbad, hw⟩ | ⟨hst, hgood, hw⟩
  · simp [hw, hst]
  · simp [hw, hbad, stCrcFail_ne_stOk hc]
  · simp [hw, hst, hgood]

/-- R55: a failed write is the status, and behind a good one the read's status is. -/
theorem outcomeStatus_delayedReadCmd_ok_iff {c : Config} (hc : c.wellFormed = true) (cmd : Word) (us : Nat)
    (count : WordCount) (s : State) :
    outcomeStatus c (delayedReadCmd c cmd us count s).1 = c.stOk ↔
      s.engine.writeStatus = c.stOk ∧ s.engine.readStatus = c.stOk ∧
        frameCrcOk c count s.engine.readByte = true := by
  by_cases hw : s.engine.writeStatus = c.stOk
  · rw [delayedReadCmd_ok_answer cmd us count hw, outcomeStatus_readWords_ok_iff hc]
    exact (and_iff_right hw).symm
  · rw [delayedReadCmd_fail cmd us count hw, outcomeStatus_error]
    exact iff_of_false hw fun h => hw h.1

/-! ### The reading operations, each by its micro-operation (MEAS_BLOCKING is `measBlocking_eq`) -/

theorem probe_eq (c : Config) (s : State) :
    probe c s = readResponse c .status (delayedReadCmd c c.cmdReadStatus c.statusReadDelayUs .one s).1
      (delayedReadCmd c c.cmdReadStatus c.statusReadDelayUs .one s).2 := rfl

theorem readMeas_eq (c : Config) (s : State) :
    readMeas c s = readResponse c .temp (readWords c .one s).1 (readWords c .one s).2 := rfl

theorem readSerial_eq (c : Config) (s : State) :
    readSerial c s = readResponse c .serial (delayedReadCmd c c.cmdReadSerial c.serialReadDelayUs .two s).1
      (delayedReadCmd c c.cmdReadSerial c.serialReadDelayUs .two s).2 := rfl

/-! ### The response of an idle block's operation -/

/-- An operation's meaning stays at position idle, so giving its response adds the response and changes no more. -/
theorem give_eq_of_idle {p : Response × State} (h : p.2.pos = .idle) :
    give p = { p.2 with responses := p.2.responses ++ [p.1] } := by
  rw [give, ← h]

end Sys2Proof.Machine
end

section
/-! The statements about PROBE and the STATUS of the reading operations (42_probe.md), settled. -/

namespace Sys2Proof.Machine

/-- Settles O23: PROBE is DELAYED_READ_CMD with one word, of which the response keeps the status alone. -/
theorem probeResult : Obligations.ProbeResult := by
  intro s hidle ws st buf w full
  have hpos := (busy_eq_false_iff s).mp hidle
  rw [exec_probe_idle hidle, probe_eq, readResponse_probe]
  refine ⟨fun hfail => ?_, fun hok => ?_⟩
  · rw [delayedReadCmd_fail _ _ _ hfail, give_eq_of_idle hpos]
    rfl
  · rw [delayedReadCmd_ok_answer _ _ _ hok, delayedReadCmd_ok_state _ _ _ hok, outcomeStatus_readWords_one,
      ← hiByte_eq_ofNat, ← loByte_eq_ofNat, give_eq_of_idle hpos]
    rfl

/-- Settles O31: the four operations answer with the outcome of a read or of a delayed read, and a configuration that
tells OK from CRC_FAIL leaves one way to OK. -/
theorem statusOkIff : Obligations.StatusOkIff := by
  intro c s hc ws st crc
  refine ⟨?probe, ?readMeas, ?measBlocking, ?readSerial⟩
  case probe =>
    rw [probe_eq, readResponse_status, outcomeStatus_delayedReadCmd_ok_iff hc, frameCrcOk_one_iff]
  case readMeas =>
    rw [readMeas_eq, readResponse_status, outcomeStatus_readWords_ok_iff hc, frameCrcOk_one_iff]
  case measBlocking =>
    rw [measBlocking_eq, readResponse_status, outcomeStatus_delayedReadCmd_ok_iff hc, frameCrcOk_one_iff]
  case readSerial =>
    rw [readSerial_eq, readResponse_status, outcomeStatus_delayedReadCmd_ok_iff hc, frameCrcOk_two_iff]

end Sys2Proof.Machine
end

section
/-! SUPPORT. The measurement operations (43_measurement.md): the operands as the statements write them, and the response
of an operation that ends with its command or with a temperature read. -/

namespace Sys2Proof.Machine

/-! ### Operands -/

/-- R36 on the number that ARG is. -/
theorem decodeRep_eq_ite (arg : Byte) :
    decodeRep arg = if arg.toNat = 1 then .medium else if arg.toNat = 2 then .low else .high := by
  simp only [decodeRep, BitVec.toNat_eq, BitVec.toNat_ofNat, Nat.reducePow, Nat.reduceMod]

/-- R41 by the mode. -/
theorem measCmd_eq_match (c : Config) (m : RepMode) :
    measCmd c m = match m with
      | .high => c.cmdMeasHigh
      | .medium => c.cmdMeasMedium
      | .low => c.cmdMeasLow := by
  cases m <;> rfl

/-! ### The response of an operation that is its command -/

/-- R61, R64, R65: at an idle block, one write and its status as the response. -/
theorem give_commandOnly {s : State} (c : Config) (w : Word) (h : s.pos = .idle) :
    give (commandOnly c w s) = { s with
      engine := s.engine.afterWrite
      trace := s.trace ++ [.write c.devAddr [hiByte w, loByte w] s.engine.writeStatus]
      responses := s.responses ++ [{ status := s.engine.writeStatus, data := .none }] } :=
  give_eq_of_idle (p := commandOnly c w s) h

/-! ### The response of a temperature read -/

section
variable {i : Instr} {s t : State}

/-- R76: any failure is answered with its status and some TEMP. -/
theorem exec_temp_error {st : Status} (hexec : exec i s = .next (give (readResponse built .temp (.error st) t)))
    (ht : t.pos = .idle) :
    ∃ v d, exec i s = .next { t with
      responses := t.responses ++ [{ status := st, data := .temp v }]
      draws := d } :=
  ⟨_, _, hexec.trans (congrArg _ (give_eq_of_idle (p := readResponse built .temp (.error st) t) ht))⟩

/-! An operation that answers with READ_WORDS(1) of `s`, given where `t` is the state after the transactions: the three
outcomes of R62. -/

variable (hexec : exec i s = .next (give (readResponse built .temp (readWords built .one s).1 t)))
  (ht : t.pos = .idle)
include hexec ht

theorem exec_temp_transport (hst : s.engine.readStatus ≠ built.stOk) :
    ∃ v d, exec i s = .next { t with
      responses := t.responses ++ [{ status := s.engine.readStatus, data := .temp v }]
      draws := d } := by
  rw [readWords_transport .one hst] at hexec
  exact exec_temp_error hexec ht

theorem exec_temp_mismatch (hst : s.engine.readStatus = built.stOk)
    (hbad : built.crc8 [s.engine.readByte 0, s.engine.readByte 1] ≠ s.engine.readByte 2) :
    ∃ v d, exec i s = .next { t with
      responses := t.responses ++ [{ status := built.stCrcFail, data := .temp v }]
      draws := d } := by
  have hframe : frameCrcOk built .one s.engine.readByte = false :=
    (frameCrcOk_eq_false_iff built .one s.engine.readByte).mpr ⟨0, Nat.one_pos, hbad⟩
  rw [readWords_mismatch hst hframe] at hexec
  exact exec_temp_error hexec ht

/-- An accepted word is converted, and no free value is drawn. -/
theorem exec_temp_good (hst : s.engine.readStatus = built.stOk)
    (hgood : built.crc8 [s.engine.readByte 0, s.engine.readByte 1] = s.engine.readByte 2) :
    exec i s = .next { t with
      responses := t.responses ++
        [{ status := built.stOk, data := .temp (tConv (wordOf (s.engine.readByte 0) (s.engine.readByte 1))) }] } := by
  rw [hexec, readWords_good hst ((frameCrcOk_one_iff built s.engine.readByte).mpr hgood)]
  exact congrArg _ (give_eq_of_idle (p := readResponse built .temp (.ok (frameWord s.engine.readByte)) t) ht)

end

/-! ### The operations that measure, at an idle block -/

theorem exec_readMeas_read {s : State} (hidle : s.busy = false) :
    exec .readMeas s = .next (give (readResponse built .temp (readWords built .one s).1
      (memRead built.devAddr 3 s).2)) := by
  rw [exec_readMeas_idle hidle, readMeas_eq, readWords_state]
  rfl

section
variable {s : State} {cmd : Word} (hidle : s.busy = false) (hcmd : measCmd built s.repMode = cmd)
include hidle hcmd

theorem exec_measBlocking_write_fail (hw : s.engine.writeStatus ≠ built.stOk) :
    exec .measBlocking s = .next (give (readResponse built .temp (.error s.engine.writeStatus)
      (writeCmd built cmd s).2)) := by
  rw [exec_measBlocking_idle hidle, measBlocking_eq, hcmd, delayedReadCmd_fail _ _ _ hw]

/-- R63: behind a good write the answer is that of READ_WORDS(1) at the first state, given after the write, the delay
and the read. -/
theorem exec_measBlocking_write_ok (hw : s.engine.writeStatus = built.stOk) :
    exec .measBlocking s = .next (give (readResponse built .temp (readWords built .one s).1 { s with
      engine := s.engine.afterWrite.afterRead
      trace := s.trace ++ [.write built.devAddr [hiByte cmd, loByte cmd] s.engine.writeStatus,
        .sleep built.measDurationUs,
        .read built.devAddr 3 s.engine.readStatus
          [s.engine.readByte 0, s.engine.readByte 1, s.engine.readByte 2]] })) := by
  rw [exec_measBlocking_idle hidle, measBlocking_eq, hcmd, delayedReadCmd_ok_answer _ _ _ hw,
    delayedReadCmd_ok_state _ _ _ hw, ← hiByte_eq_ofNat, ← loByte_eq_ofNat]
  rfl

end

end Sys2Proof.Machine
end

section
/-! The statements about the measurement operations (43_measurement.md), settled. -/

namespace Sys2Proof.Machine

/-- Settles O19: REP_MODE is the one field that `setRep` writes, and ARG is decoded by its number. -/
theorem setRepResult : Obligations.SetRepResult := by
  intro s arg hidle
  have hpos := (busy_eq_false_iff s).mp hidle
  rw [exec_setRep_idle arg hidle, give_eq_of_idle (p := setRep built arg s) hpos, ← decodeRep_eq_ite]
  rfl

/-- Settles O20: START_MEAS is the command of the mode and nothing behind it. -/
theorem startMeasResult : Obligations.StartMeasResult := by
  intro s hidle cmd
  have hcmd : measCmd built s.repMode = cmd := measCmd_eq_match built s.repMode
  rw [exec_startMeas_idle hidle, hcmd, give_commandOnly built cmd ((busy_eq_false_iff s).mp hidle)]

/-- Settles O21: the three outcomes of READ_WORDS(1), answered after the one read. -/
theorem readMeasResult : Obligations.ReadMeasResult := by
  intro s hidle st buf tr
  have hpos := (busy_eq_false_iff s).mp hidle
  have hread := exec_readMeas_read hidle
  exact ⟨exec_temp_good hread hpos, exec_temp_transport hread hpos, exec_temp_mismatch hread hpos⟩

/-- Settles O22: the failed write alone, else the three outcomes of READ_WORDS(1) after the write, the delay and the
read. -/
theorem measBlockingResult : Obligations.MeasBlockingResult := by
  intro s hidle cmd ws st buf w full
  have hpos := (busy_eq_false_iff s).mp hidle
  have hcmd : measCmd built s.repMode = cmd := measCmd_eq_match built s.repMode
  refine ⟨fun hw => exec_temp_error (exec_measBlocking_write_fail hidle hcmd hw) hpos, ?_⟩
  have hread := exec_measBlocking_write_ok hidle hcmd
  exact ⟨fun hw => exec_temp_transport (hread hw) hpos, fun hw => exec_temp_mismatch (hread hw) hpos,
    fun hw => exec_temp_good (hread hw) hpos⟩

end Sys2Proof.Machine
end

section
/-! SUPPORT. READ_SERIAL (44_heater_serial.md R66): the value it assembles, and the two shapes of its response. -/

namespace Sys2Proof.Machine

/-! ### The serial number -/

theorem word32Of_toNat (w0 w1 : Word) : (word32Of w0 w1).toNat = 2 ^ 16 * w0.toNat + w1.toNat := by
  simp only [word32Of, BitVec.toNat_append]
  rw [← Nat.shiftLeft_add_eq_or_of_lt w1.isLt, Nat.shiftLeft_eq, Nat.mul_comm]

/-- R43: the four data bytes of a two-word frame, the CRC bytes 2 and 5 left out. -/
theorem word32Of_frameWord (buf : Nat → Byte) :
    word32Of (frameWord buf 0) (frameWord buf 1) = BitVec.ofNat 32 ((buf 0).toNat * 2 ^ 24 + (buf 1).toNat * 2 ^ 16
      + (buf 3).toNat * 2 ^ 8 + (buf 4).toNat) := by
  apply BitVec.eq_of_toNat_eq
  have h0 := (buf 0).isLt
  have h1 := (buf 1).isLt
  have h3 := (buf 3).isLt
  have h4 := (buf 4).isLt
  simp only [word32Of_toNat, frameWord_toNat, BitVec.toNat_ofNat, Nat.reduceMul, Nat.reduceAdd]
  omega

/-- The two-word frame is refused as soon as one of its CRC bytes is. -/
theorem frameCrcOk_two_eq_false_iff (c : Config) (buf : Nat → Byte) :
    frameCrcOk c .two buf = false ↔ c.crc8 [buf 0, buf 1] ≠ buf 2 ∨ c.crc8 [buf 3, buf 4] ≠ buf 5 := by
  rw [← Bool.not_eq_true, frameCrcOk_two_iff, not_and_or]

/-! ### The response of READ_SERIAL -/

/-- R76: any failure is answered with its status and some SERIAL. -/
theorem exec_readSerial_error {s t : State} {st : Status}
    (hexec : exec .readSerial s = .next (give (readResponse built .serial (.error st) t))) (ht : t.pos = .idle) :
    ∃ v d, exec .readSerial s = .next { t with
      responses := t.responses ++ [{ status := st, data := .serial v }]
      draws := d } :=
  ⟨_, _, hexec.trans (congrArg _ (give_eq_of_idle (p := readResponse built .serial (.error st) t) ht))⟩

/-- An accepted frame is assembled, and no free value is drawn. -/
theorem give_serial_good {s : State} (c : Config) (buf : Nat → Byte) (h : s.pos = .idle) :
    give (readResponse c .serial (.ok (frameWord buf)) s) = { s with
      responses := s.responses ++
        [{ status := c.stOk
           data := .serial (BitVec.ofNat 32 ((buf 0).toNat * 2 ^ 24 + (buf 1).toNat * 2 ^ 16
             + (buf 3).toNat * 2 ^ 8 + (buf 4).toNat)) }] } := by
  rw [give_eq_of_idle (p := readResponse c .serial (.ok (frameWord buf)) s) h, ← word32Of_frameWord]
  rfl

/-! ### READ_SERIAL at an idle block -/

theorem exec_readSerial_write_fail {s : State} (hidle : s.busy = false)
    (hw : s.engine.writeStatus ≠ built.stOk) :
    exec .readSerial s = .next (give (readResponse built .serial (.error s.engine.writeStatus)
      (writeCmd built built.cmdReadSerial s).2)) := by
  rw [exec_readSerial_idle hidle, readSerial_eq, delayedReadCmd_fail _ _ _ hw]

/-- R66: behind a good write the answer is that of READ_WORDS(2) at the first state, given after the write, the delay
and the read. -/
theorem exec_readSerial_write_ok {s : State} (hidle : s.busy = false) (hw : s.engine.writeStatus = built.stOk) :
    exec .readSerial s = .next (give (readResponse built .serial (readWords built .two s).1 { s with
      engine := s.engine.afterWrite.afterRead
      trace := s.trace ++ [.write built.devAddr [hiByte built.cmdReadSerial, loByte built.cmdReadSerial]
          s.engine.writeStatus,
        .sleep built.serialReadDelayUs,
        .read built.devAddr 6 s.engine.readStatus
          [s.engine.readByte 0, s.engine.readByte 1, s.engine.readByte 2,
            s.engine.readByte 3, s.engine.readByte 4, s.engine.readByte 5]] })) := by
  rw [exec_readSerial_idle hidle, readSerial_eq, delayedReadCmd_ok_answer _ _ _ hw,
    delayedReadCmd_ok_state _ _ _ hw, ← hiByte_eq_ofNat, ← loByte_eq_ofNat]
  rfl

end Sys2Proof.Machine
end

section
/-! The statements about the heater operations and READ_SERIAL (44_heater_serial.md), settled. -/

namespace Sys2Proof.Machine

/-- Settles O24: each heater operation is its command and nothing behind it. -/
theorem heaterResult : Obligations.HeaterResult := by
  rintro s i cmd hidle (⟨rfl, rfl⟩ | ⟨rfl, rfl⟩)
  · rw [exec_heaterOn_idle hidle, give_commandOnly _ _ ((busy_eq_false_iff s).mp hidle)]
  · rw [exec_heaterOff_idle hidle, give_commandOnly _ _ ((busy_eq_false_iff s).mp hidle)]

/-- Settles O25: the failed write alone, else the three outcomes of READ_WORDS(2) after the write, the delay and the
read. -/
theorem readSerialResult : Obligations.ReadSerialResult := by
  intro s hidle ws st buf w full
  have hpos := (busy_eq_false_iff s).mp hidle
  refine ⟨fun hw => exec_readSerial_error (exec_readSerial_write_fail hidle hw) hpos, fun hw hst => ?transport,
    fun hw hst hbad => ?mismatch, fun hw hst hgood0 hgood1 => ?good⟩ <;>
    have hread := exec_readSerial_write_ok hidle hw
  case transport =>
    rw [readWords_transport .two hst] at hread
    exact exec_readSerial_error hread hpos
  case mismatch =>
    rw [readWords_mismatch hst ((frameCrcOk_two_eq_false_iff built buf).mpr hbad)] at hread
    exact exec_readSerial_error hread hpos
  case good =>
    rw [hread, readWords_good hst ((frameCrcOk_two_iff built buf).mpr ⟨hgood0, hgood1⟩)]
    exact congrArg _ (give_serial_good built buf hpos)

end Sys2Proof.Machine
end

section
/-! SUPPORT. The operations without I/O (45_info.md R69): accepted, they stand before their response. -/

namespace Sys2Proof.Machine

section
variable {i : Instr} (hi : (∃ arg, i = .setRep arg) ∨ i = .getVersion ∨ i = .getAddr)
include hi

theorem wellFormed_req_of_noIo : i.wellFormed .req = true := by
  obtain ⟨arg, rfl⟩ | rfl | rfl := hi <;> rfl

/-- R69, R72: acceptance leaves nothing to do but to respond OK, and has touched no port. -/
theorem accept_noIo (c : Config) (s : State) :
    ∃ r, (accept c i s).pos = .answer r ∧ r.status = c.stOk ∧ (accept c i s).trace = s.trace ∧
      (accept c i s).engine = s.engine ∧ (accept c i s).responses = s.responses := by
  obtain ⟨arg, rfl⟩ | rfl | rfl := hi <;> exact ⟨_, rfl, rfl, rfl, rfl, rfl⟩

end

end Sys2Proof.Machine
end

section
/-! The statements about the constants and the operations without I/O (45_info.md), settled. -/

namespace Sys2Proof.Machine

/-- Settles O26: each operation gives its constant and hands the state on, and `setWidth` keeps the address's number. -/
theorem constantsResult : Obligations.ConstantsResult := by
  intro s hidle
  have hpos := (busy_eq_false_iff s).mp hidle
  constructor
  · rw [exec_getVersion_idle hidle, give_eq_of_idle (p := getVersion built s) hpos]
    rfl
  · rw [exec_getAddr_idle hidle, give_eq_of_idle (p := getAddr built s) hpos, BitVec.ofNat_toNat]
    rfl

/-- Settles O33: at an idle block acceptance leaves the response alone to give, and a busy block refuses any request. -/
theorem noIoOperationsTouchNoPort : Obligations.NoIoOperationsTouchNoPort := by
  intro i s hi
  have hreq := wellFormed_req_of_noIo hi
  refine ⟨fun hidle => ?idle, exec_request_busy hreq⟩
  case idle =>
    obtain ⟨r, hanswer, hstatus, htrace, hengine, hresp⟩ := accept_noIo hi built s
    refine ⟨give (r, accept built i s), r, ?_, htrace, hengine, by rw [give_responses, hresp], hstatus⟩
    rw [exec_request hreq hidle, finish_answer built hanswer]

end Sys2Proof.Machine
end

section
/-! SUPPORT. How an operation ends (60_exceptions.md): behind it the block is idle, and its STATUS is OK, CRC_FAIL or what
the engine answered (R71). -/

namespace Sys2Proof.Machine

/-- R38: the request words that select no operation are those of 0x0A00 and above. -/
theorem reserved_of_decodeReq_error {w : Word} {e : DecodeError} (he : decodeReq w = .error e) : 0x0A00 ≤ w.toNat := by
  by_contra hlow
  obtain ⟨i, hi⟩ := decodeReq_of_not_reserved (w := w) (by omega)
  cases he.symm.trans hi

/-- R77: BUSY is false once the operation in progress has run, whatever its response was. -/
@[simp] theorem finish_busy (c : Config) (s : State) : (finish c s).busy = false := by
  cases hs : s.busy with
  | false => rw [finish_idle c ((busy_eq_false_iff s).mp hs), hs]
  | true =>
    obtain ⟨p, hfinish, -, -, -⟩ := runsToResponse_of_busy c hs
    rw [hfinish, give_busy]

/-! ### The micro-operations -/

@[simp] theorem readWords_responses (c : Config) (count : WordCount) (s : State) :
    (readWords c count s).2.responses = s.responses := by
  rw [readWords_state, memRead_responses]

@[simp] theorem delayedReadCmd_responses (c : Config) (cmd : Word) (us : Nat) (count : WordCount) (s : State) :
    (delayedReadCmd c cmd us count s).2.responses = s.responses := by
  by_cases hw : s.engine.writeStatus = c.stOk
  · rw [delayedReadCmd_ok cmd us count hw, readWords_responses, sleep_responses, writeCmd_responses]
  · rw [delayedReadCmd_fail cmd us count hw, writeCmd_responses]

/-- R54, R57: the statuses of READ_WORDS. -/
theorem outcomeStatus_readWords_cases (c : Config) (count : WordCount) (s : State) :
    outcomeStatus c (readWords c count s).1 = c.stOk ∨ outcomeStatus c (readWords c count s).1 = c.stCrcFail ∨
      outcomeStatus c (readWords c count s).1 = s.engine.readStatus := by
  rcases readWords_cases c count s with ⟨-, hw⟩ | ⟨-, -, hw⟩ | ⟨-, -, hw⟩ <;> rw [hw]
  · exact .inr (.inr rfl)
  · exact .inr (.inl rfl)
  · exact .inl rfl

/-- R55, R57: the statuses of DELAYED_READ_CMD are those of its read and the status of its write. -/
theorem outcomeStatus_delayedReadCmd_cases (c : Config) (cmd : Word) (us : Nat) (count : WordCount) (s : State) :
    outcomeStatus c (delayedReadCmd c cmd us count s).1 = c.stOk ∨
      outcomeStatus c (delayedReadCmd c cmd us count s).1 = c.stCrcFail ∨
      outcomeStatus c (delayedReadCmd c cmd us count s).1 = s.engine.writeStatus ∨
      outcomeStatus c (delayedReadCmd c cmd us count s).1 = s.engine.readStatus := by
  by_cases hw : s.engine.writeStatus = c.stOk
  · rw [delayedReadCmd_ok_answer cmd us count hw]
    exact (outcomeStatus_readWords_cases c count s).imp_right (.imp_right .inr)
  · rw [delayedReadCmd_fail cmd us count hw]
    exact .inr (.inr (.inl rfl))

/-! ### The operations that end with a read -/

section
variable {i : Instr} {s : State} {kind : ReadKind}

/-- R71 for READ_MEAS, which writes nothing. -/
theorem exec_readWords_status {count : WordCount}
    (hexec : exec i s
      = .next (give (readResponse built kind (readWords built count s).1 (readWords built count s).2))) :
    ∃ t r, exec i s = .next t ∧ t.responses = s.responses ++ [r] ∧
      (r.status = built.stOk ∨ r.status = built.stCrcFail ∨ r.status = s.engine.readStatus) := by
  refine ⟨_, _, hexec, by rw [give_responses, readResponse_responses, readWords_responses], ?_⟩
  rw [readResponse_status]
  exact outcomeStatus_readWords_cases built count s

/-- R71 for the operations that are a DELAYED_READ_CMD. -/
theorem exec_delayedReadCmd_status {cmd : Word} {us : Nat} {count : WordCount}
    (hexec : exec i s = .next (give (readResponse built kind (delayedReadCmd built cmd us count s).1
      (delayedReadCmd built cmd us count s).2))) :
    ∃ t r, exec i s = .next t ∧ t.responses = s.responses ++ [r] ∧
      (r.status = built.stOk ∨ r.status = built.stCrcFail ∨ r.status = s.engine.writeStatus ∨
        r.status = s.engine.readStatus) := by
  refine ⟨_, _, hexec, by rw [give_responses, readResponse_responses, delayedReadCmd_responses], ?_⟩
  rw [readResponse_status]
  exact outcomeStatus_delayedReadCmd_cases built cmd us count s

end

end Sys2Proof.Machine
end

section
/-! The statements about failures and refusals (60_exceptions.md), settled. -/

namespace Sys2Proof.Machine

/-- Settles O9: by BUSY and the head of the host's inputs, each arm of the step with its own lemma. -/
theorem stepStopsOnlyHere : Obligations.StepStopsOnlyHere := by
  intro s
  cases hs : s.busy with
  | true =>
    by_cases hreset : s.host.head? = some .reset
    · exact .inr (.inl ⟨rfl, hreset, step_busy_reset hs hreset⟩)
    · exact .inl ⟨_, step_busy hs hreset⟩
  | false =>
    match hhost : s.host with
    | [] => exact .inl ⟨_, step_waiting hs hhost⟩
    | .reset :: rest => exact .inl ⟨_, step_reset hs hhost⟩
    | .request w :: rest =>
      cases hi : decodeReq w with
      | ok i => exact .inl ⟨_, step_request hs hhost hi⟩
      | error e =>
        exact .inr (.inr ⟨rfl, w, rfl, reserved_of_decodeReq_error hi, step_reserved hs hhost hi⟩)

/-- Settles O11: the first operation ends at an idle block, and that is all the second one asks of the state. -/
theorem nextRequestAcceptedAfterAny : Obligations.NextRequestAcceptedAfterAny := by
  intro i j s hi hj hs
  have hidle : (finish built (accept built i s)).busy = false := finish_busy built _
  exact ⟨_, _, exec_request hi hs, hidle, exec_request hj hidle, finish_busy built _⟩

/-- Settles O32: without I/O the status is the constant OK, a command alone has the status of its write, and an operation
that reads has that of READ_WORDS or DELAYED_READ_CMD. -/
theorem statusComesFromHere : Obligations.StatusComesFromHere := by
  intro i s hi hs
  cases i with
  | setRep arg => exact ⟨_, _, exec_setRep_idle arg hs, rfl, rfl⟩
  | getVersion => exact ⟨_, _, exec_getVersion_idle hs, rfl, rfl⟩
  | getAddr => exact ⟨_, _, exec_getAddr_idle hs, rfl, rfl⟩
  | startMeas => exact ⟨_, _, exec_startMeas_idle hs, rfl, rfl⟩
  | heaterOn => exact ⟨_, _, exec_heaterOn_idle hs, rfl, rfl⟩
  | heaterOff => exact ⟨_, _, exec_heaterOff_idle hs, rfl, rfl⟩
  | readMeas => exact exec_readWords_status (readMeas_eq built s ▸ exec_readMeas_idle hs)
  | probe => exact exec_delayedReadCmd_status (probe_eq built s ▸ exec_probe_idle hs)
  | measBlocking => exact exec_delayedReadCmd_status (measBlocking_eq built s ▸ exec_measBlocking_idle hs)
  | readSerial => exact exec_delayedReadCmd_status (readSerial_eq built s ▸ exec_readSerial_idle hs)
  | _ => cases hi

end Sys2Proof.Machine
end

section
/-! SUPPORT. Delays and writes (70_reset_and_hazards.md R92): an event added behind a trace, where the block stands
before a delay, and the induction over a step. -/

namespace Sys2Proof.Machine

/-! ### Traces in which every delay follows a write reported OK -/

/-- The first clause of `State.SleepsFollowWrites`, of a trace alone. -/
def SleepsFollowIn (c : Config) (trace : List Event) : Prop :=
  ∀ before us after, trace = before ++ .sleep us :: after → endsInOkWrite c before

theorem sleepsFollowWrites_iff (s : State) :
    s.SleepsFollowWrites ↔
      SleepsFollowIn built s.trace ∧ ∀ us kind, s.pos = .delay us kind → endsInOkWrite built s.trace :=
  Iff.rfl

/-- Of an event added behind the trace only a delay asks something. -/
theorem SleepsFollowIn.append {c : Config} {trace : List Event} {e : Event} (h : SleepsFollowIn c trace)
    (he : ∀ us, e = .sleep us → endsInOkWrite c trace) : SleepsFollowIn c (trace ++ [e]) := by
  intro before us after heq
  rcases after.eq_nil_or_concat' with rfl | ⟨init, last, rfl⟩
  · obtain ⟨rfl, hlast⟩ := List.append_inj' heq rfl
    exact he us (List.singleton_inj.mp hlast)
  · rw [← List.cons_append, ← List.append_assoc] at heq
    exact h before us init (List.append_inj' heq rfl).1

/-! ### A micro-step -/

/-- R14: a micro-step adds no event or one, and adds a delay only where the block stands before it. -/
theorem microStep_trace_sleep (c : Config) (s : State) :
    (microStep c s).trace = s.trace ∨
    ∃ e, (microStep c s).trace = s.trace ++ [e] ∧ ∀ us, e = .sleep us → ∃ kind, s.pos = .delay us kind := by
  cases hpos : s.pos with
  | idle => exact .inl (by rw [microStep_idle c hpos])
  | command w after =>
    refine .inr ⟨_, by rw [microStep_command c hpos, sendCommand_trace], ?_⟩
    nofun
  | delay us kind =>
    refine .inr ⟨.sleep us, by rw [microStep_delay c hpos, sleep_trace], fun v hv => ⟨kind, ?_⟩⟩
    rw [Event.sleep.inj hv]
  | read kind =>
    rw [microStep_read c hpos, prepare_trace, readResponse_trace, readWords_state, memRead_trace]
    exact .inr ⟨_, rfl, nofun⟩
  | answer r => exact .inl (by rw [microStep_answer c hpos, give_trace])

/-- R55: the command phase leads to a delay only when its write was reported OK. -/
theorem endsInOkWrite_of_sendCommand_delay {c : Config} {w : Word} {after : AfterCommand} {s : State} {us : Nat}
    {kind : ReadKind} (h : (sendCommand c w after s).pos = .delay us kind) :
    endsInOkWrite c (sendCommand c w after s).trace := by
  by_cases hw : s.engine.writeStatus = c.stOk
  · exact ⟨s.trace, _, _, by rw [sendCommand_trace, hw]⟩
  · obtain ⟨r, hanswer, -⟩ := sendCommand_pos_of_fail w after hw
    cases hanswer.symm.trans h

/-- No micro-step but the command phase leads to a delay. -/
theorem endsInOkWrite_of_microStep_delay {c : Config} {s : State} {us : Nat} {kind : ReadKind}
    (h : (microStep c s).pos = .delay us kind) : endsInOkWrite c (microStep c s).trace := by
  cases hpos : s.pos with
  | idle =>
    rw [microStep_idle c hpos] at h
    cases hpos.symm.trans h
  | command w after =>
    rw [microStep_command c hpos] at h ⊢
    exact endsInOkWrite_of_sendCommand_delay h
  | delay =>
    rw [microStep_delay c hpos] at h
    cases h
  | read =>
    rw [microStep_read c hpos] at h
    cases h
  | answer =>
    rw [microStep_answer c hpos] at h
    cases h

theorem microStep_sleepsFollowWrites {s : State} (h : s.SleepsFollowWrites) :
    (microStep built s).SleepsFollowWrites := by
  obtain ⟨htrace, hpos⟩ := (sleepsFollowWrites_iff s).mp h
  refine (sleepsFollowWrites_iff _).mpr ⟨?_, fun _ _ => endsInOkWrite_of_microStep_delay⟩
  rcases microStep_trace_sleep built s with hsame | ⟨e, happend, hsleep⟩
  · rwa [hsame]
  · rw [happend]
    refine htrace.append fun us he => ?_
    obtain ⟨kind, hdelay⟩ := hsleep us he
    exact hpos us kind hdelay

/-! ### Acceptance -/

/-- No operation is accepted to a position before a delay. -/
theorem accept_sleepsFollowWrites (i : Instr) {s : State} (h : s.SleepsFollowWrites) :
    (accept built i s).SleepsFollowWrites := by
  obtain ⟨htrace, hpos⟩ := (sleepsFollowWrites_iff s).mp h
  refine (sleepsFollowWrites_iff _).mpr ⟨by rwa [accept_trace], ?_⟩
  cases i with
  | probe | setRep | startMeas | readMeas | measBlocking | heaterOn | heaterOff | readSerial | getVersion | getAddr =>
    exact nofun
  | _ => exact hpos

/-! ### The induction over a step -/

/-- A step keeps what taking an input, reset, acceptance and a micro-step keep. -/
theorem step_preserves {P : State → Prop} (htake : ∀ s rest, P s → P { s with host := rest })
    (hreset : ∀ s, P s → P (resetBlock s)) (haccept : ∀ i s, P s → P (accept built i s))
    (hmicro : ∀ s, P s → P (microStep built s)) {s t : State} (h : P s) (hstep : step s = .next t) : P t := by
  have hfinish : ∀ s, P s → P (finish built s) := fun _ h => hmicro _ (hmicro _ (hmicro _ (hmicro _ h)))
  cases hs : s.busy with
  | true =>
    by_cases hhead : s.host.head? = some .reset
    · cases hstep.symm.trans (step_busy_reset hs hhead)
    · cases hstep.symm.trans (step_busy hs hhead)
      exact hfinish s h
  | false =>
    match hhost : s.host with
    | [] =>
      cases hstep.symm.trans (step_waiting hs hhost)
      exact h
    | .reset :: rest =>
      cases hstep.symm.trans (step_reset hs hhost)
      exact hreset _ (htake s rest h)
    | .request w :: rest =>
      cases hi : decodeReq w with
      | error e => cases hstep.symm.trans (step_reserved hs hhost hi)
      | ok i =>
        cases hstep.symm.trans (step_request hs hhost hi)
        exact hfinish _ (haccept i _ (htake s rest h))

end Sys2Proof.Machine
end

section
/-! The statements about reset and hazards (70_reset_and_hazards.md), settled. -/

namespace Sys2Proof.Machine

/-- Settles O44: taking an input touches neither trace nor position, reset leaves the block idle, and acceptance and the
micro-steps keep the invariant. -/
theorem stepKeepsSleepsAfterWrites : Obligations.StepKeepsSleepsAfterWrites := fun _ _ =>
  step_preserves (P := State.SleepsFollowWrites) (fun _ _ h => h) (fun _ ⟨htrace, _⟩ => ⟨htrace, nofun⟩)
    (fun i _ => accept_sleepsFollowWrites i) (fun _ => microStep_sleepsFollowWrites)

/-- Settles O1: the step is `resetBlock` behind the taken input, and `State.reset` is such a state. -/
theorem resetStartsHighAndIdle : Obligations.ResetStartsHighAndIdle :=
  ⟨fun _ _ hs hhost => ⟨_, step_reset hs hhost, rfl, rfl, rfl, rfl, rfl, rfl, rfl, rfl⟩, rfl, rfl, rfl⟩

/-- Settles O2: the refusing arm asks of the block only that it is busy. -/
theorem resetWhileBusyRefused : Obligations.ResetWhileBusyRefused := by
  intro s rest hs hhost
  exact step_busy_reset hs (by rw [hhost, List.head?_cons])

end Sys2Proof.Machine
end

section
/-! SUPPORT. Placing an instruction's word (log entries 1 and 6): a command word goes to a command phase with no reset at
the head of the host's inputs, a request word to the host port of an idle block. -/

namespace Sys2Proof.Machine

theorem tableWord_toNat (w : Word) : tableWord 16 w.toNat = w := by
  rw [tableWord, Nat.mod_eq_of_lt w.isLt, BitVec.ofNat_toNat, BitVec.setWidth_eq]

/-- R38, R40: no request word is a command code. -/
theorem decodeCmd_encode_request {i : Instr} (h : i.wellFormed .req = true) : ∃ e, decodeCmd (encode i) = .error e := by
  cases hcmd : decodeCmd (encode i) with
  | error e => exact ⟨e, rfl⟩
  | ok j =>
    obtain ⟨e, hreq⟩ := formatsAreDisjoint _ _ hcmd
    cases hreq.symm.trans (decodeReq_encode h)

theorem withFetchWord_request {i : Instr} (s : State) (h : i.wellFormed .req = true) :
    s.withFetchWord 16 (encode i).toNat = { s with pos := .idle, host := .request (encode i) :: s.host.tail } := by
  obtain ⟨e, he⟩ := decodeCmd_encode_request h
  rw [State.withFetchWord, tableWord_toNat, placeWord, he]

theorem withFetchWord_command {i : Instr} (s : State) (h : i.wellFormed .cmd = true) :
    s.withFetchWord 16 (encode i).toNat =
      { s with
        pos := .command (encode i) .respond
        host := s.host.dropWhile (fun input => decide (input = .reset)) } := by
  rw [State.withFetchWord, tableWord_toNat, placeWord, decodeCmd_encode h]

/-- R85: with the resets at the head dropped, none stands before the block. -/
theorem head?_dropWhile_reset_ne (host : List HostInput) :
    (host.dropWhile (fun input => decide (input = .reset))).head? ≠ some .reset := by
  intro h
  have hkept := List.head?_dropWhile_not (fun input => decide (input = HostInput.reset)) host
  rw [h] at hkept
  cases hkept

end Sys2Proof.Machine
end

section
/-! The statements about placed instructions (30_encoding.md) and the reset state (10_state.md section 5), settled. -/

namespace Sys2Proof.Machine

/-- Settles O8, by format: a placed request is one request of an idle block, a placed command word stands before a busy
block that no reset holds. -/
theorem placedInstructionRuns : Obligations.PlacedInstructionRuns := by
  intro s i
  rcases wellFormed_req_or_cmd i with hi | hi
  · rw [withFetchWord_request s hi]
    obtain ⟨t, r, hstep, hresp, hidle, -⟩ := oneRequestOneResponse
      { s with pos := .idle, host := .request (encode i) :: s.host.tail } _ _ i rfl rfl (decodeReq_encode hi)
    exact ⟨t, r, hstep, hresp, hidle⟩
  · rw [withFetchWord_command s hi]
    obtain ⟨-, hbusy, -⟩ := busyHoldsTheHost
    obtain ⟨t, r, hstep, -, hidle, hresp⟩ := hbusy
      { s with
        pos := .command (encode i) .respond
        host := s.host.dropWhile (fun input => decide (input = .reset)) } rfl
      (head?_dropWhile_reset_ne s.host)
    exact ⟨t, r, hstep, hresp, hidle⟩

/-- Settles O43: no event has been, and the idle position is legal. -/
theorem resetIsBusLegal : Obligations.ResetIsBusLegal :=
  ⟨nofun, trivial⟩

/-- Settles O45: the trace is empty, so no event stands behind a prefix of it, and the idle block is before no delay. -/
theorem resetHasNoSleep : Obligations.ResetHasNoSleep := by
  refine (sleepsFollowWrites_iff State.reset).mpr ⟨fun before us after hsplit => ?_, nofun⟩
  exact absurd hsplit.symm (List.append_ne_nil_of_right_ne_nil before (List.cons_ne_nil _ after))

end Sys2Proof.Machine
end
